-- ==== Sys2Proof/Word.lean ====
section
/-! DEFINITION. The bit vectors of the J640: bytes of frames, 16-bit samples, and the 32-bit quantities
that wrap (positions and part time; 00_scope.md, Arithmetic). -/

namespace Sys2Proof

/-- A byte of a frame, of a page or of the clip store. -/
abbrev Byte := BitVec 8

/-- A raw sample value of a module: signed 16-bit (Table 5-1). -/
abbrev Half := BitVec 16

/-- A 32-bit quantity that wraps: a motor position or a part time (00_scope.md, Arithmetic). -/
abbrev Word := BitVec 32

/-- "wrapped signed" difference: modulo 2³², read as a signed 32-bit number (00_scope.md, Arithmetic). -/
def Word.diff (a b : Word) : Int := (a - b).toInt

end Sys2Proof
end

