-- ==== Sys2Proof/Syntax.lean ====
section
/-! DEFINITION. The commands of the J640: one constructor of `Instr` for each row of spec/opcode_table.json,
with the named fields that the chapters give each request, and what the outside world supplies with each event. -/

namespace Sys2Proof

/-! ### Names -/

/-- The link a frame arrived on (00_scope.md, Terms: source). -/
inductive Source where
  | program
  | tablet
deriving DecidableEq, Repr, Inhabited

abbrev MotorId := Fin 6
abbrev VoiceId := Fin 4
abbrev PortId := Fin 4
/-- Position k of a chain, k from 1 to 4, is index k − 1. -/
abbrev ModulePos := Fin 4
abbrev ChannelId := Fin 16
abbrev EntryId := Fin 16
abbrev WindowId := Fin 4
abbrev ClipId := Fin 48
abbrev CueId := Fin 64
abbrev SubId := Fin 24

/-- One of the ten things that can be owned (00_scope.md, Terms: resource). -/
inductive Resource where
  | motor (m : MotorId)
  | voice (v : VoiceId)
deriving DecidableEq, Repr, Inhabited

/-- An enumerated field as it comes in a request: a name of the enumeration, or a value outside it. -/
inductive Coded (α : Type) where
  | known (a : α)
  | outside
deriving DecidableEq, Repr, Inhabited

/-- The entry a request names: a number, or ANY. -/
inductive RawEntry where
  | number (n : Nat)
  | any
deriving DecidableEq, Repr, Inhabited

/-! ### Motors (Chapters 1 and 2) -/

inductive Polarity where
  | normal
  | reversed
deriving DecidableEq, Repr, Inhabited

/-- A stop action, and the range of loss_action (R9, Table 1-3). -/
inductive StopAction where
  | coast
  | brake
  | hold
deriving DecidableEq, Repr, Inhabited

inductive SegKind where
  | speed
  | move
  | goto
  | hold
deriving DecidableEq, Repr, Inhabited

inductive EndAction where
  | coast
  | brake
  | hold
  | blend
deriving DecidableEq, Repr, Inhabited

/-- The comparison of a channel test (Table 2-1). -/
inductive Side where
  | above
  | below
deriving DecidableEq, Repr, Inhabited

/-- Reasons of a segment end (Table 2-3). -/
inductive EndReason where
  | done
  | condition
  | stallOk
  | stalled
  | halted
  | taken
  | released
  | lease
  | sensorLost
  | fault
  | replaced
deriving DecidableEq, Repr, Inhabited

/-- The end condition of an offered segment (Table 2-1, R20). -/
inductive RawCondition where
  | none
  | channel (ch index : Nat) (side : Coded Side) (threshold : Int)
  | stall
  | outside
deriving DecidableEq, Repr, Inhabited

/-- A segment as it is offered by SEG or REACT_SET, before the checks of Table 2-1 (R20). `otherPresence` says that a
presence bit other than those of target and duration is set. -/
structure RawSegment where
  kind : Coded SegKind
  otherPresence : Bool
  target : Option Int
  speed : Int
  accel : Nat
  decel : Nat
  duration : Option Nat
  condition : RawCondition
  endAction : Coded EndAction
  tag : Byte
deriving DecidableEq, Repr, Inhabited

/-- The change set of MOTOR_SET (R11): each field of Table 1-3 present with a value, or absent. -/
structure MotorSetFields where
  dutyLimit : Option Int
  kp : Option Int
  kv : Option Int
  ki : Option Int
  kf : Option Int
  stallCurrent : Option Int
  stallSpeed : Option Int
  stallTime : Option Int
  tripCurrent : Option Int
  polarity : Option (Coded Polarity)
  lossAction : Option (Coded StopAction)
deriving DecidableEq, Repr, Inhabited

/-! ### Claims (Chapter 9) -/

/-- The fields of CLAIM and TAKE: a set of resources, and a lease in ms (R160, R164). That the two bytes of a set name
nothing but resources, so that no set is refused for what it names, is the model's choice (log 44). -/
structure ClaimFields where
  set : List Resource
  lease : Nat
deriving DecidableEq, Repr, Inhabited

/-! ### Chains and modules (Chapters 5 and 6) -/

inductive RestartOption where
  | restart
  | off
deriving DecidableEq, Repr, Inhabited

inductive ChainState where
  | off
  | reset
  | train
  | rollcall
  | config
  | active
  | degraded
  | empty
  | fault
deriving DecidableEq, Repr, Inhabited

/-- The pages of a module: FORMAT 0, RANGE 1, RATE 2, START 3 (section 5.6). -/
inductive Page where
  | format
  | range
  | rate
  | start
deriving DecidableEq, Repr, Inhabited

abbrev PageBytes := Vector Byte 8

/-- The settings of CHAIN_SET, each present or absent; a divider for each of positions 1 to 4 (R93). -/
structure ChainSetFields where
  syncPeriod : Option Int
  threshold : Option Int
  sticky : Option Bool
  divider1 : Option Int
  divider2 : Option Int
  divider3 : Option Int
  divider4 : Option Int
deriving DecidableEq, Repr, Inhabited

/-- The content of a module's answer (Table 5-1, R71). -/
inductive Answer where
  | training
  | rollcall (pos : Nat) (kind model : Byte) (valueCount settle : Nat) (last : Bool)
  | pageAck (pos page : Nat)
  | pageAnswer (pos page : Nat) (bytes : PageBytes)
  | sample (pos : Nat) (stamp : Word) (values : List Half) (beyond : Bool)
deriving DecidableEq, Repr

/-- What one return wire has carried since the call: no complete answer, or a complete one, with whether its CRC-8 check
is correct (R71, R72). -/
inductive WireAnswer where
  | silent
  | complete (checkOk : Bool) (content : Answer)
deriving DecidableEq, Repr

/-! ### Logical channels (Chapter 6) -/

/-- The fields of MAP_SET (R106). -/
structure MapFields where
  channel : Nat
  primaryPort : Nat
  primaryPos : Nat
  spare : Option (Nat × Nat)
  num : Int
  den : Int
  offset : Int
deriving DecidableEq, Repr, Inhabited

/-! ### Watches and reactions (Chapter 7) -/

inductive WatchKind where
  | above
  | below
  | outside
  | inside
  | change
deriving DecidableEq, Repr, Inhabited

/-- The fields of WATCH_SET (R121). -/
structure WatchFields where
  entry : RawEntry
  channel : Nat
  index : Nat
  comparison : Coded WatchKind
  threshold : Int
  lo : Int
  hi : Int
  delta : Int
  hysteresis : Int
  fireOnLoss : Bool
deriving DecidableEq, Repr, Inhabited

/-- A reaction's trigger as offered by REACT_SET (Table 7-3, R127). A resource is numbered 0 to 9 in the order M0–M5,
V0–V3. -/
inductive RawTrigger where
  | watch (n : Nat)
  | segmentEnd (motor : Nat) (reasons : Option (List (Coded EndReason)))
  | voiceEnd (voice : Nat)
  | claimEnd (resource : Nat)
  | chainState (port : Nat) (entered : Option (Coded ChainState))
  | outside
deriving DecidableEq, Repr, Inhabited

/-- A reaction's action as offered by REACT_SET (Table 7-3, R127). -/
inductive RawAction where
  | halt (motor : Nat) (action : Coded StopAction)
  | segment (motor : Nat) (seg : RawSegment) (replace : Bool)
  | play (voice cue : Nat)
  | stop (voice : Nat) (fade : Bool)
  | notify (code : Byte)
  | outside
deriving DecidableEq, Repr, Inhabited

inductive ReactMode where
  | once
  | repeated
deriving DecidableEq, Repr, Inhabited

structure ReactFields where
  entry : RawEntry
  trigger : RawTrigger
  action : RawAction
  mode : Coded ReactMode
  enabled : Bool
deriving DecidableEq, Repr, Inhabited

/-- What REACT_READ names: a reaction entry or a watch entry (R128), or neither: a value outside that enumeration. -/
inductive ReadTarget where
  | reaction (n : Nat)
  | watch (n : Nat)
  | outside
deriving DecidableEq, Repr, Inhabited

/-! ### Sound (Chapter 8) -/

/-- The fields of WINDOW_SET (R137); `otherRight` says that a right outside the enumeration is in the set. -/
structure WindowFields where
  window : Nat
  valid : Bool
  base : Nat
  size : Nat
  programWrite : Bool
  tabletWrite : Bool
  playable : Bool
  otherRight : Bool
  locked : Bool
deriving DecidableEq, Repr, Inhabited

inductive ClipFormat where
  | pcm8At8k
  | pcm8At16k
  | pcm16At16k
deriving DecidableEq, Repr, Inhabited

structure ClipFields where
  entry : RawEntry
  base : Nat
  length : Nat
  format : Coded ClipFormat
deriving DecidableEq, Repr, Inhabited

inductive Wave where
  | square
  | triangle
deriving DecidableEq, Repr, Inhabited

/-- A cue's kind and fields as offered by CUE_SET (Table 8-3). -/
inductive RawCueBody where
  | clip (clip start length rep : Nat) (gain : Int)
  | tone (frequency duration : Int) (wave : Coded Wave) (gain : Int)
  | silence (duration : Int)
  | outside
deriving DecidableEq, Repr, Inhabited

/-- A cue's next as offered: an entry number, or END. -/
inductive RawNext where
  | entry (n : Nat)
  | finish
deriving DecidableEq, Repr, Inhabited

structure CueFields where
  entry : RawEntry
  body : RawCueBody
  next : RawNext
deriving DecidableEq, Repr, Inhabited

/-- The option of STOP (R147). -/
inductive FadeOption where
  | fade
  | now
deriving DecidableEq, Repr, Inhabited

/-! ### Telemetry (Chapter 10) -/

/-- An item as offered by SUBSCRIBE (Table 10-2, R169). -/
inductive RawItem where
  | channel (ch index : Nat)
  | motorPos (m : Nat)
  | motorSpeed (m : Nat)
  | motorDuty (m : Nat)
  | motorState (m : Nat)
  | voiceState (v : Nat)
  | budgetUsed
  | chainState (p : Nat)
  | outside
deriving DecidableEq, Repr, Inhabited

structure SubscribeFields where
  item : RawItem
  period : Nat
  latency : Nat
  priority : Nat
  delta : Nat
deriving DecidableEq, Repr, Inhabited

/-! ### Request kinds (Table 11-2) -/

inductive RequestKind where
  | ident
  | reset
  | claim
  | release
  | renew
  | take
  | motorSet
  | motorRead
  | zero
  | clearFault
  | seg
  | halt
  | budgetSet
  | budgetRead
  | chainRestart
  | chainSet
  | chainRead
  | moduleRead
  | modulePageWrite
  | modulePageRead
  | mapSet
  | mapClear
  | channelRead
  | watchSet
  | watchClear
  | reactSet
  | reactClear
  | reactRead
  | windowSet
  | storeWrite
  | storeRead
  | clipDefine
  | clipRemove
  | cueSet
  | cueClear
  | play
  | stop
  | voiceGain
  | masterSet
  | subscribe
  | unsubscribe
deriving DecidableEq, Repr, Inhabited

/-! ### Commands -/

/-- The commands, one constructor per row of spec/opcode_table.json, in the table's order. A request row carries the
link it came in on and its TAG, then its named fields. -/
inductive Instr where
  | powerOn
  | softReset
  | linkUpFall
  | linkUpRise
  | readyInChange (link : Source) (high : Bool)
  | frameByteTimeout (link : Source)
  | unknownKind (src : Source) (tag kind : Byte)
  | frameStart (link : Source)
  | frameSent (link : Source)
  | ident (src : Source) (tag : Byte)
  | reset (src : Source) (tag : Byte)
  | claim (src : Source) (tag : Byte) (f : ClaimFields)
  | release (src : Source) (tag : Byte) (set : List Resource)
  | renew (src : Source) (tag : Byte) (set : List Resource)
  | take (src : Source) (tag : Byte) (f : ClaimFields)
  | leaseExpiry (r : Resource)
  | motorSet (src : Source) (tag : Byte) (motor : Nat) (f : MotorSetFields)
  | motorRead (src : Source) (tag : Byte) (motor : Nat)
  | zero (src : Source) (tag : Byte) (motor : Nat) (value : Word)
  | clearFault (src : Source) (tag : Byte) (motor : Nat)
  | seg (src : Source) (tag : Byte) (motor : Nat) (r : RawSegment)
  | halt (src : Source) (tag : Byte) (motor : Nat) (action : Coded StopAction)
  | encoderStep (m : MotorId) (a b : Bool)
  | controlTick (m : MotorId) (isense : Int)
  | trip (m : MotorId)
  | durationExpiry (m : MotorId)
  | stall (m : MotorId)
  | budgetSet (src : Source) (tag : Byte) (budget : Int)
  | budgetRead (src : Source) (tag : Byte)
  | chainRestart (src : Source) (tag : Byte) (port : Nat) (option : Coded RestartOption)
  | chainSet (src : Source) (tag : Byte) (port : Nat) (f : ChainSetFields)
  | chainRead (src : Source) (tag : Byte) (port : Nat)
  | moduleRead (src : Source) (tag : Byte) (port pos : Nat)
  | modulePageWrite (src : Source) (tag : Byte) (port pos page : Nat) (bytes : PageBytes)
  | modulePageRead (src : Source) (tag : Byte) (port pos page : Nat)
  | resetRestExpiry (p : PortId)
  | trainRetryTimer (p : PortId)
  | emptyProbeTimer (p : PortId)
  | faultRetryTimer (p : PortId)
  | syncTimerExpiry (p : PortId)
  | callSent (p : PortId)
  | transactionEnd (p : PortId) (retA retB : WireAnswer)
  | answerTimeout (p : PortId) (retA retB : WireAnswer)
  | missesAbsent (p : PortId) (pos : ModulePos)
  | settleExpiry (p : PortId) (pos : ModulePos)
  | staleDeadline (ch : ChannelId)
  | mapSet (src : Source) (tag : Byte) (f : MapFields)
  | mapClear (src : Source) (tag : Byte) (channel : Nat)
  | channelRead (src : Source) (tag : Byte) (channel : Nat)
  | watchSet (src : Source) (tag : Byte) (f : WatchFields)
  | watchClear (src : Source) (tag : Byte) (entry : Nat)
  | reactSet (src : Source) (tag : Byte) (f : ReactFields)
  | reactClear (src : Source) (tag : Byte) (entry : Nat)
  | reactRead (src : Source) (tag : Byte) (target : ReadTarget)
  | windowSet (src : Source) (tag : Byte) (f : WindowFields)
  | storeWrite (src : Source) (tag : Byte) (offset : Nat) (bytes : List Byte)
  | storeRead (src : Source) (tag : Byte) (offset count : Nat)
  | clipDefine (src : Source) (tag : Byte) (f : ClipFields)
  | clipRemove (src : Source) (tag : Byte) (entry : Nat)
  | cueSet (src : Source) (tag : Byte) (f : CueFields)
  | cueClear (src : Source) (tag : Byte) (entry : Nat)
  | play (src : Source) (tag : Byte) (voice cue : Nat)
  | stop (src : Source) (tag : Byte) (voice : Nat) (option : Coded FadeOption)
  | voiceGain (src : Source) (tag : Byte) (voice : Nat) (level : Int)
  | masterSet (src : Source) (tag : Byte) (master : Int)
  | outputSample
  | subscribe (src : Source) (tag : Byte) (f : SubscribeFields)
  | unsubscribe (src : Source) (tag : Byte) (id : Nat)
  | periodExpiry (id : SubId)
  | byteReceived (link : Source) (byte : Byte)
  | carrierPeriod
deriving DecidableEq, Repr

end Sys2Proof
end

