-- ==== Sys2Proof/Decode.lean ====
section
/-! DEFINITION. Commands spelled by words of spec/opcode_table.json. No row of the table gives bits, so no word
spells a command. How bytes on a link become a request is Machine/Frames.lean. -/

namespace Sys2Proof

/-- The command that the low `nbits` bits of `w` spell by the table's bits: none, since no row gives bits. -/
def decodeTableWord (_nbits _w : Nat) : Option Instr := none

end Sys2Proof
end

