-- ==== Sys2Proof/Machine/Arith.lean ====
section
/-! DEFINITION. The arithmetic of the Conventions (00_scope.md): division toward zero, clamping, checked
indices, and the CRC-8 of frames and answers (R71, R177). -/

namespace Sys2Proof.Machine

/-- "div": a division that rounds toward zero (00_scope.md, Arithmetic). -/
def divZero (a b : Int) : Int := a.tdiv b

/-- "Clamped to a range" (00_scope.md, Arithmetic). -/
def clampInt (lo hi x : Int) : Int := if x < lo then lo else if hi < x then hi else x

/-- A request's number clamped to a range of non-negative numbers. -/
def clampNat (lo hi : Nat) (x : Int) : Nat := (clampInt lo hi x).toNat

/-- Whether clamping to the range changes the number. -/
def outOfRange (lo hi x : Int) : Bool := x < lo || hi < x

/-- A counter that saturates at 65535 (R126, R129). -/
def countUp (n : Nat) : Nat := min 65535 (n + 1)

/-- The index that a request's number names, if it is in range. -/
def index (k n : Nat) : Option (Fin k) := if h : n < k then some ⟨n, h⟩ else none

/-- A position from 1 to 4 as an index. -/
def position (n : Nat) : Option ModulePos := if n = 0 then none else index 4 (n - 1)

/-- The sign of a direction. -/
def signOf (x : Int) : Int := if 0 < x then 1 else if x < 0 then -1 else 0

/-- Eight shifts of the CRC-8 register with polynomial 07h, most significant bit first (R177). -/
def crcShifts : Nat → Byte → Byte
  | 0, c => c
  | n + 1, c => crcShifts n (if c.msb then (c <<< 1) ^^^ 0x07#8 else c <<< 1)

/-- The CRC-8 of a run of bytes: polynomial 07h, initial value 00h, no final inversion (R177). -/
def crc8 (bytes : List Byte) : Byte := bytes.foldl (fun c b => crcShifts 8 (c ^^^ b)) 0

/-- A little-endian number (R176). -/
def leNat : List Byte → Nat
  | [] => 0
  | b :: rest => b.toNat + 256 * leNat rest

/-- A little-endian two's complement number of the run's width (R176). -/
def leInt (bytes : List Byte) : Int :=
  let n := leNat bytes
  let span := 256 ^ bytes.length
  if 2 * n < span then n else (n : Int) - span

/-- `k` bytes of a number, little-endian (R176). -/
def toLe : Nat → Nat → List Byte
  | 0, _ => []
  | k + 1, n => BitVec.ofNat 8 n :: toLe k (n / 256)

end Sys2Proof.Machine
end

