-- ==== Sys2Proof/Records.lean ====
section
/-! DEFINITION. The records that the J640's blocks keep, and the contents of the messages it sends: segments,
motor configuration, module and channel records, watches, reactions, cues, subscriptions, replies, notices. -/

namespace Sys2Proof

/-! ### Motion (Chapters 1 to 3) -/

/-- Motor states (Table 1-4). -/
inductive MotorState where
  | idle
  | running
  | holding
  | braked
  | fault
deriving DecidableEq, Repr, Inhabited

/-- The limited flag's three values (section 3.1). -/
inductive Limited where
  | clear
  | positive
  | negative
deriving DecidableEq, Repr, Inhabited

/-- Motor configuration record (Table 1-3). -/
structure MotorConfig where
  dutyLimit : Nat
  kp : Nat
  kv : Nat
  ki : Nat
  kf : Nat
  stallCurrent : Nat
  stallSpeed : Nat
  stallTime : Nat
  tripCurrent : Nat
  polarity : Polarity
  lossAction : StopAction
deriving DecidableEq, Repr, Inhabited

/-- Fields set by MOTOR_SET and not yet adopted (R11); polarity is never pending (R13). -/
structure PendingConfig where
  dutyLimit : Option Nat
  kp : Option Nat
  kv : Option Nat
  ki : Option Nat
  kf : Option Nat
  stallCurrent : Option Nat
  stallSpeed : Option Nat
  stallTime : Option Nat
  tripCurrent : Option Nat
  lossAction : Option StopAction
deriving DecidableEq, Repr, Inhabited

/-- The pending configuration after adoption or reset: empty (R12). -/
def PendingConfig.empty : PendingConfig :=
  { dutyLimit := none, kp := none, kv := none, ki := none, kf := none, stallCurrent := none,
    stallSpeed := none, stallTime := none, tripCurrent := none, lossAction := none }

/-- The end condition of a checked segment (Table 2-1). -/
inductive Condition where
  | none
  | channel (ch : ChannelId) (index : Fin 8) (side : Side) (threshold : Int)
  | stall
deriving DecidableEq, Repr, Inhabited

/-- A checked and clamped segment record (Table 2-1, R20). -/
structure Segment where
  kind : SegKind
  target : Option Int
  speed : Int
  accel : Nat
  decel : Nat
  duration : Option Nat
  condition : Condition
  endAction : EndAction
  tag : Byte
deriving DecidableEq, Repr, Inhabited

inductive Direction where
  | forward
  | backward
deriving DecidableEq, Repr, Inhabited

inductive Phase where
  | accel
  | cruise
  | decel
  | through
  | stopping
deriving DecidableEq, Repr, Inhabited

inductive BlendDecision where
  | undecided
  | blend
  | noBlend
deriving DecidableEq, Repr, Inhabited

/-- The active segment with its run-time fields (Table 2-2). -/
structure Active where
  seg : Segment
  target : Option Word
  direction : Option Direction
  phase : Phase
  elapsed : Nat
  blend : BlendDecision
deriving DecidableEq, Repr, Inhabited

/-- The causes of a MOTOR_FAULT notice (R17). -/
inductive MotorFaultCause where
  | trip
  | stall
deriving DecidableEq, Repr, Inhabited

/-! ### Claims (Chapter 9) -/

/-- A lease: its period and the time left, in ms (Table 9-1). -/
structure Lease where
  period : Nat
  remaining : Nat
deriving DecidableEq, Repr, Inhabited

/-- An owner record (Table 9-1); owner `none` is NONE. -/
structure Claim where
  owner : Option Source
  lease : Option Lease
deriving DecidableEq, Repr, Inhabited

/-- Claim end reasons (Table 9-2). -/
inductive ClaimEndReason where
  | released
  | taken
  | lease
  | linkDown
deriving DecidableEq, Repr, Inhabited

/-! ### Chains and modules (Chapters 5 and 6) -/

inductive Wire where
  | retA
  | retB
deriving DecidableEq, Repr, Inhabited

inductive ModuleState where
  | absent
  | configuring
  | settling
  | ready
deriving DecidableEq, Repr, Inhabited

/-- A module's latest sample: raw values and their capture stamp (Table 6-1). -/
structure Sample where
  values : List Half
  stamp : Word
deriving DecidableEq, Repr, Inhabited

/-- A module record (Table 6-1). Its position is its place in the chain's list; a page of `none` awaits its read. -/
structure ModuleRecord where
  kind : Byte
  model : Byte
  valueCount : Nat
  settleTime : Nat
  format : Option PageBytes
  range : Option PageBytes
  rate : Option PageBytes
  start : Option PageBytes
  divider : Nat
  countdown : Nat
  state : ModuleState
  settleLeft : Nat
  bucket : Nat
  misses : Nat
  failing : Bool
  last : Option Sample
deriving DecidableEq, Repr, Inhabited

/-- An identity collected by ROLLCALL (R77). -/
structure Identity where
  kind : Byte
  model : Byte
  valueCount : Nat
  settleTime : Nat
deriving DecidableEq, Repr, Inhabited

/-- Where the outcome of a page operation goes: a request's reply slot, the copy engine's present copy, or nowhere
(a reply or a copy that has ended meanwhile: R91, R117). -/
inductive OpOrigin where
  | request (src : Source) (slot : Fin 8)
  | copy
  | orphan
deriving DecidableEq, Repr, Inhabited

/-- An operation of the page-operation queue (section 5.6); `bytes` is `none` for a read. -/
structure PageOp where
  pos : ModulePos
  page : Page
  bytes : Option PageBytes
  tries : Nat
  origin : OpOrigin
deriving DecidableEq, Repr, Inhabited

/-- A call on a DOWN wire (Table 5-1). ROLLCALL(k) carries the index k − 1. -/
inductive Call where
  | resetAll
  | train
  | rollcall (k : ModulePos)
  | setPage (pos : ModulePos) (page : Page) (bytes : PageBytes)
  | getPage (pos : ModulePos) (page : Page)
  | poll (pos : ModulePos)
  | sync (stamp : Word)
deriving DecidableEq, Repr, Inhabited

/-- A page transaction of CONFIG (R79): a write of the shadow page, or a read into it. -/
structure ConfigOp where
  pos : ModulePos
  page : Page
  write : Bool
deriving DecidableEq, Repr, Inhabited

/-- The causes of a CHAIN_STATE notice (Table 5-5). -/
inductive ChainCause where
  | request
  | step
  | noPattern
  | noModule
  | probe
  | rollcallFailed
  | pageFailed
  | retry
  | wireFailed
  | moduleAbsent
  | allAbsent
  | extended
deriving DecidableEq, Repr, Inhabited

/-- The cause codes of a MODULE_STATE notice (Table 6-2, R104). -/
inductive ModuleCause where
  | bringUp
  | off
  | rollcall
  | start
  | pageWrite
  | settled
  | misses
  | failingSet
  | failingCleared
deriving DecidableEq, Repr, Inhabited

inductive ChannelState where
  | unmapped
  | single
  | redundant
  | exposed
  | waiting
  | copying
  | lost
deriving DecidableEq, Repr, Inhabited

inductive ServingSlot where
  | primary
  | spare
deriving DecidableEq, Repr, Inhabited

/-- A module named by port and position. -/
structure ModuleName where
  port : PortId
  pos : ModulePos
deriving DecidableEq, Repr, Inhabited

/-- A channel record (Table 6-3). Eight values are kept; those from the value count on stay 0. -/
structure Channel where
  state : ChannelState
  primary : Option ModuleName
  spare : Option ModuleName
  kind : Byte
  valueCount : Nat
  num : Int
  den : Int
  offset : Int
  serving : ServingSlot
  values : Vector Int 8
  fresh : Bool
  stamp : Word
  poor : Bool
  staleAt : Option Word
deriving DecidableEq, Repr, Inhabited

/-- The causes of a CHANNEL_STATE notice (Table 6-6). -/
inductive ChannelCause where
  | mapped
  | cleared
  | servingLost
  | servingFailed
  | otherUnhealthy
  | otherHealthy
  | copyStarted
  | copyDone
  | copyFailed
  | targetLost
  | recovered
  | poorSet
  | poorCleared
deriving DecidableEq, Repr, Inhabited

/-- The copy engine's work: its channel, its copy set in the order FORMAT, RANGE, RATE, START, and the pages
written, 0 to 4 (R115). -/
structure Copy where
  channel : ChannelId
  format : PageBytes
  range : PageBytes
  rate : PageBytes
  start : PageBytes
  written : Nat
deriving DecidableEq, Repr, Inhabited

/-! ### Watches and reactions (Chapter 7) -/

/-- The comparison of a checked watch with the numbers it uses (Table 7-1). -/
inductive WatchTest where
  | above (threshold : Int)
  | below (threshold : Int)
  | outside (lo hi : Int)
  | inside (lo hi : Int)
  | change (delta : Int)
deriving DecidableEq, Repr, Inhabited

inductive WatchState where
  | armed
  | tripped
deriving DecidableEq, Repr, Inhabited

/-- A watch (Table 7-1). -/
structure Watch where
  channel : ChannelId
  index : Fin 8
  test : WatchTest
  hysteresis : Int
  fireOnLoss : Bool
  state : WatchState
  reference : Option Int
  creator : Source
  fires : Nat
deriving DecidableEq, Repr, Inhabited

/-- The causes of a WATCH_FIRED notice (R126). -/
inductive WatchCause where
  | value
  | loss
  | cleared
deriving DecidableEq, Repr, Inhabited

/-- A reaction's trigger (Table 7-3). -/
inductive Trigger where
  | watch (n : EntryId)
  | segmentEnd (m : MotorId) (reasons : Option (List EndReason))
  | voiceEnd (v : VoiceId)
  | claimEnd (r : Resource)
  | chainState (p : PortId) (entered : Option ChainState)
deriving DecidableEq, Repr, Inhabited

/-- A reaction's action (Table 7-3). -/
inductive Action where
  | halt (m : MotorId) (action : StopAction)
  | segment (m : MotorId) (seg : Segment) (replace : Bool)
  | play (v : VoiceId) (cue : CueId)
  | stop (v : VoiceId) (fade : Bool)
  | notify (code : Byte)
deriving DecidableEq, Repr, Inhabited

/-- A reaction (Table 7-3). -/
structure Reaction where
  trigger : Trigger
  action : Action
  mode : ReactMode
  enabled : Bool
  creator : Source
  fires : Nat
  skips : Nat
deriving DecidableEq, Repr, Inhabited

/-! ### Sound (Chapter 8) -/

/-- A window of the clip store (R137). -/
structure Window where
  valid : Bool
  base : Nat
  size : Nat
  programWrite : Bool
  tabletWrite : Bool
  playable : Bool
  locked : Bool
deriving DecidableEq, Repr, Inhabited

/-- A clip directory entry (R140). -/
structure Clip where
  base : Nat
  length : Nat
  format : ClipFormat
  creator : Source
  inUse : Nat
deriving DecidableEq, Repr, Inhabited

/-- A checked cue's kind and fields (Table 8-3). -/
inductive CueBody where
  | clip (clip : ClipId) (start length rep gain : Nat)
  | tone (frequency duration : Nat) (wave : Wave) (gain : Nat)
  | silence (duration : Nat)
deriving DecidableEq, Repr, Inhabited

/-- A cue's next: an entry, or END (Table 8-3). -/
inductive NextCue where
  | entry (n : CueId)
  | finish
deriving DecidableEq, Repr, Inhabited

/-- A cue table entry (R142). -/
structure Cue where
  body : CueBody
  next : NextCue
  creator : Source
deriving DecidableEq, Repr, Inhabited

/-- The region of a CLIP cue as fetched: its first offset in the store, its bytes, and the clip's base and format
(R145). -/
structure Region where
  base : Nat
  format : ClipFormat
  first : Nat
  length : Nat
deriving DecidableEq, Repr, Inhabited

/-- The cue copy of a voice (Table 8-4); the region is present for a CLIP cue. -/
structure CueCopy where
  body : CueBody
  next : NextCue
  region : Option Region
deriving DecidableEq, Repr, Inhabited

/-- Passes still to play after this one (Table 8-4). -/
inductive Repeats where
  | left (n : Nat)
  | endless
deriving DecidableEq, Repr, Inhabited

inductive VoiceState where
  | idle
  | playing
  | fading
deriving DecidableEq, Repr, Inhabited

/-- VOICE_END reasons (Table 8-5). -/
inductive VoiceEndReason where
  | finished
  | brokenList
  | badClip
  | replaced
  | stopped
  | released
  | taken
  | lease
deriving DecidableEq, Repr, Inhabited

/-- A voice (Table 8-4). Its grant is held by the supply governor. -/
structure Voice where
  state : VoiceState
  cueEntry : Option CueId
  cue : Option CueCopy
  position : Nat
  half : Bool
  repeats : Repeats
  phase : Word
  level : Nat
  target : Nat
  gain : Nat
  ceiling : Nat
  fadeReason : Option VoiceEndReason
  fadeLink : Option Source
deriving DecidableEq, Repr, Inhabited

/-! ### Events taken by the reactions (Table 7-4) -/

inductive Event where
  | watch (n : EntryId) (cause : WatchCause)
  | segmentEnd (m : MotorId) (tag : Byte) (reason : EndReason) (blended : Bool)
  | voiceEnd (v : VoiceId) (reason : VoiceEndReason)
  | claimEnd (r : Resource) (reason : ClaimEndReason)
  | chainState (p : PortId) (entered : ChainState)
deriving DecidableEq, Repr, Inhabited

/-! ### Telemetry (Chapter 10) -/

/-- A checked item (Table 10-2). -/
inductive Item where
  | channel (ch : ChannelId) (index : Fin 8)
  | motorPos (m : MotorId)
  | motorSpeed (m : MotorId)
  | motorDuty (m : MotorId)
  | motorState (m : MotorId)
  | voiceState (v : VoiceId)
  | budgetUsed
  | chainState (p : PortId)
deriving DecidableEq, Repr, Inhabited

/-- A subscription (Table 10-1) with the time left on its period timer. -/
structure Subscription where
  link : Source
  item : Item
  period : Nat
  latency : Nat
  priority : Nat
  delta : Option Nat
  lastSent : Option Int
  due : Bool
  dueSince : Word
  coalesced : Bool
  periodLeft : Nat
deriving DecidableEq, Repr, Inhabited

/-- An item as it is read: value, FRESH, STARVED and age (R173). -/
structure Reading where
  value : Int
  fresh : Bool
  starved : Bool
  age : Nat
deriving DecidableEq, Repr, Inhabited

/-- An item of a telemetry frame (R174, Table 11-5). -/
structure SentItem where
  id : SubId
  reading : Reading
  urgent : Bool
  coalesced : Bool
deriving DecidableEq, Repr, Inhabited

/-- A telemetry frame: the part time of the build and 1 to 12 items (R174). -/
structure TelemetryFrame where
  stamp : Word
  items : List SentItem
deriving DecidableEq, Repr, Inhabited

/-! ### Replies (Chapter 11) -/

/-- Reply status codes (Table 0-5, Table 11-3). -/
inductive Status where
  | ok
  | accepted
  | unknownKind
  | badLength
  | badValue
  | notPermitted
  | notOwner
  | held
  | full
  | busy
  | faulted
  | denied
  | inUse
  | noSource
  | failed
  | aborted
deriving DecidableEq, Repr, Inhabited

/-- The content of MOTOR_READ's reply (Table 1-5). -/
structure MotorReport where
  state : MotorState
  position : Word
  speed : Int
  current : Nat
  duty : Int
  grant : Nat
  starved : Bool
  depth : Nat
deriving DecidableEq, Repr, Inhabited

/-- The content of BUDGET_READ's reply (Table 4-3). Grants and asks are of M0–M5 and V0–V3 in that order. -/
structure BudgetReport where
  budget : Nat
  used : Nat
  free : Nat
  grants : List Nat
  asks : List Nat
  starved : List MotorId
  capped : List VoiceId
deriving DecidableEq, Repr, Inhabited

/-- The settings in CHAIN_SET's reply (R93): the chain's three, and the divider of each record. -/
structure ChainSettings where
  syncPeriod : Nat
  threshold : Nat
  sticky : Bool
  dividers : List Nat
deriving DecidableEq, Repr, Inhabited

/-- The content of CHAIN_READ's reply (R94). -/
structure ChainReport where
  state : ChainState
  count : Nat
  overlong : Bool
  modules : List (Byte × Byte × ModuleState)
  failedA : Bool
  failedB : Bool
  selected : Wire
  syncPeriod : Nat
  threshold : Nat
  sticky : Bool
  syncPending : Bool
  faultCount : Nat
  queued : Nat
  heldAside : Bool
deriving DecidableEq, Repr, Inhabited

/-- The content of CHANNEL_READ's reply (R111). -/
structure ChannelReport where
  channel : Channel
  age : Nat
  ahead : Option Nat
  progress : Option (Nat × Bool)
deriving DecidableEq, Repr, Inhabited

/-- The content of a reply after its status byte, by the request it answers. -/
inductive ReplyBody where
  | empty
  | unknownKind (kind : Byte)
  | ident (codes : List Nat) (counts : List Nat)
  | claims (table : List (Option Source × Option Nat)) (listed : List Resource)
  | motorConfig (c : MotorConfig)
  | motor (r : MotorReport)
  | depth (n : Nat)
  | halted (discarded : Nat) (tag : Option Byte) (state : MotorState)
  | budgetSet (budget used lowered : Nat)
  | budget (r : BudgetReport)
  | chainSettings (c : ChainSettings)
  | chain (r : ChainReport)
  | module (pos : ModulePos) (r : ModuleRecord) (channel : Option ChannelId)
  | page (page : Page) (bytes : PageBytes)
  | mapped (state : ChannelState) (serving : ServingSlot) (valueCount : Nat)
  | channel (r : ChannelReport)
  | entry (n : Nat)
  | fires (n : Nat)
  | counts (fires skips : Nat)
  | watch (w : Option Watch)
  | reaction (r : Option Reaction)
  | windows (ws : List Window)
  | bytes (bs : List Byte)
  | played (state : VoiceState) (cue : CueId) (replaced : Bool)
  | voiceState (state : VoiceState)
  | voiceGain (level target ceiling : Nat) (state : VoiceState)
  | master (n : Nat)
  | subscribed (id : SubId) (period latency : Nat)
deriving DecidableEq, Repr, Inhabited

/-- What a block answers: the status, the CLAMPED flag, and the content (R179). -/
structure Reply where
  status : Status
  clamped : Bool
  body : ReplyBody
deriving DecidableEq, Repr, Inhabited

/-- A complete reply in its slot, with its kind and TAG (R179). -/
structure WaitingReply where
  slot : Fin 8
  kind : Byte
  tag : Byte
  reply : Reply
deriving DecidableEq, Repr, Inhabited

/-! ### Notices -/

/-- The causes of STARTED (R184). -/
inductive StartCause where
  | powerOn
  | softReset
  | linkUp
deriving DecidableEq, Repr, Inhabited

/-- The outcome of a REACTION notice (R133), with the refusal's status and NOTIFY's code. -/
inductive ReactionOutcome where
  | notify (code : Byte)
  | notOwner
  | refused (status : Status)
  | tooDeep
deriving DecidableEq, Repr, Inhabited

/-- The contents of the notices (R17, R40, R96, R104, R118, R126, R133, R156, R161, R184). -/
inductive NoticeBody where
  | started (cause : StartCause) (time : Word)
  | segmentEnd (m : MotorId) (tag : Byte) (reason : EndReason) (blended : Bool) (pos : Word) (discarded : Nat)
      (time : Word)
  | motorFault (m : MotorId) (cause : MotorFaultCause) (pos : Word) (iAvg : Nat) (time : Word)
  | chainState (p : PortId) (left entered : ChainState) (cause : ChainCause) (count : Nat) (overlong : Bool)
      (failedA failedB : Bool) (selected : Wire) (sticky : Bool) (time : Word)
  | moduleState (p : PortId) (pos : ModulePos) (kind model : Byte) (left entered : ModuleState)
      (cause : ModuleCause) (failing : Bool) (bucket misses : Nat) (time : Word)
  | channelState (ch : ChannelId) (left entered : ChannelState) (cause : ChannelCause) (slot : ServingSlot)
      (serving : Option ModuleName) (poor : Bool) (time : Word)
  | watchFired (n : EntryId) (ch : ChannelId) (index : Fin 8) (test : WatchTest) (cause : WatchCause) (value : Int)
      (state : WatchState) (fires : Nat) (stamp time : Word)
  | reaction (n : EntryId) (outcome : ReactionOutcome) (event : Event) (depth : Nat) (fires skips : Nat)
      (time : Word)
  | voiceEnd (v : VoiceId) (reason : VoiceEndReason) (cue : Option CueId) (clip : Option ClipId) (time : Word)
  | claimEnd (r : Resource) (reason : ClaimEndReason) (lost new : Option Source) (time : Word)
deriving DecidableEq, Repr, Inhabited

/-- A notice in its queue: the OVERFLOW flag of its flags byte, and its content (R180). -/
structure Notice where
  overflow : Bool
  body : NoticeBody
deriving DecidableEq, Repr, Inhabited

/-! ### Layouts (R176) -/

/-- Where a number stands in a body: its first byte, its bytes, and whether it is signed. -/
structure NumberPlace where
  first : Nat
  count : Nat
  signed : Bool
deriving DecidableEq, Repr, Inhabited

/-- A piece of a content's layout: bytes that spell names, codes and flags, or the content's number of the given index
in so many bytes. -/
inductive ContentPiece where
  | codes (bytes : List Byte)
  | number (index width : Nat)
deriving DecidableEq, Repr, Inhabited

/-! ### Frames that go out -/

/-- A frame in the transmitter (R181). -/
inductive TxFrame where
  | reply (r : WaitingReply)
  | notice (n : Notice)
  | telemetry (f : TelemetryFrame)
deriving DecidableEq, Repr, Inhabited

end Sys2Proof
end

