-- ==== Sys2Proof/Machine/State.lean ====
section
/-! DEFINITION. The state of the J640 as plain data, the reasons a step can stop, and the state right after
power-on. -/

namespace Sys2Proof.Machine

/-! ### Link units (Chapter 11) -/

/-- The receive assembler (R177): hunting for A5h, awaiting LEN, or collecting KIND, TAG, body and then CHECK. -/
inductive Assembler where
  | hunting
  | awaitLen
  | collecting (len : Byte) (got : List Byte)
deriving DecidableEq, Repr

/-- A reserved reply slot: the kind and TAG of the request that holds it (R178). -/
structure SlotUse where
  kind : Byte
  tag : Byte
deriving DecidableEq, Repr

/-- A link unit (R176 to R181). `begun` is how many bytes of the frame in progress had begun when READY-in last fell
inside it, 1 before any fall and 0 while the transmitter is idle; `draws` counts such falls, and names the next free
value of that number (log 40). -/
structure LinkUnit where
  readyIn : Bool
  rx : Assembler
  slots : Vector (Option SlotUse) 8
  waiting : List WaitingReply
  notices : List Notice
  overflow : Bool
  tx : Option TxFrame
  begun : Nat
  draws : Nat
deriving DecidableEq, Repr

/-! ### Motion contexts (Chapters 1 to 3) -/

/-- A motion context (Table 1-1). The grant is held by the governor. -/
structure Motor where
  state : MotorState
  position : Word
  history : List Word
  vmeas : Int
  iAvg : Nat
  overCount : Nat
  config : MotorConfig
  pendingConfig : PendingConfig
  refPos : Word
  refFrac : Int
  vRef : Int
  accFrac : Int
  integ : Int
  limited : Limited
  u : Int
  uLim : Int
  uOut : Int
  starved : Bool
  active : Option Active
  queue : List Segment
  stallMs : Nat
deriving DecidableEq, Repr

/-- What a PWM pin carries (R1): held low, held high, or a pulse train of a high time in permille. -/
inductive PwmLevel where
  | low
  | high
  | pulse (permille : Nat)
deriving DecidableEq, Repr

structure PwmPins where
  a : PwmLevel
  b : PwmLevel
deriving DecidableEq, Repr

/-- The levels of ENC A and ENC B as last sampled (R2). -/
structure EncoderPins where
  a : Bool
  b : Bool
deriving DecidableEq, Repr

/-! ### Supply governor (Chapter 4) -/

/-- A resource's grant and recorded ask, in mA (Table 4-1). -/
structure Supply where
  grant : Nat
  ask : Nat
deriving DecidableEq, Repr

structure Governor where
  budget : Nat
  motors : Vector Supply 6
  voices : Vector Supply 4
deriving DecidableEq, Repr

/-! ### Chain controllers (Chapter 5) -/

/-- A chain controller. `modules` holds the records of positions 1 to n in order. The timers hold the ms left, or
`none` when stopped. -/
structure Chain where
  state : ChainState
  inFlight : Option Call
  modules : List ModuleRecord
  overlong : Bool
  failedA : Bool
  failedB : Bool
  selected : Wire
  syncPeriod : Nat
  threshold : Nat
  sticky : Bool
  syncPending : Bool
  roundStamp : Word
  round : List ModulePos
  queue : List PageOp
  aside : List PageOp
  faultCount : Nat
  trainTries : Nat
  found : List Identity
  callTries : Nat
  configTodo : List ConfigOp
  restLeft : Option Nat
  trainLeft : Option Nat
  probeLeft : Option Nat
  retryLeft : Option Nat
  syncLeft : Option Nat
deriving DecidableEq, Repr

/-! ### The part -/

structure State where
  time : Word
  linkUp : Bool
  resetTaken : Bool
  program : LinkUnit
  tablet : LinkUnit
  motorClaims : Vector Claim 6
  voiceClaims : Vector Claim 4
  motors : Vector Motor 6
  encoder : Vector EncoderPins 6
  pwm : Vector PwmPins 6
  governor : Governor
  chains : Vector Chain 4
  channels : Vector Channel 16
  copy : Option Copy
  watches : Vector (Option Watch) 16
  reactions : Vector (Option Reaction) 16
  store : List Host.Cell
  windows : Vector Window 4
  clips : Vector (Option Clip) 48
  cues : Vector (Option Cue) 64
  voices : Vector Voice 4
  master : Nat
  aout : Int
  subs : Vector (Option Subscription) 24
  pending : List Instr
deriving DecidableEq, Repr

/-- The reasons a step can stop with a fault. There are none: the spec gives every request an answer or discards
its frame (Table 0-5, R177, R178), and every event an effect or none (log 28). -/
inductive Fault where
deriving DecidableEq, Repr

/-- The reasons a step can refuse a command. -/
inductive Refusal where
  /-- Raised by `exec` alone, for a command whose meaning is not written yet; safe, since the machine stops. -/
  | notModelled (mnemonic : String)
deriving DecidableEq, Repr

/-! ### Values after power-on -/

/-- R184: a link unit right after power-on, READY-in high (log 7). -/
def LinkUnit.fresh : LinkUnit :=
  { readyIn := true, rx := .hunting, slots := Vector.replicate 8 none, waiting := [], notices := [],
    overflow := false, tx := none, begun := 0, draws := 0 }

/-- R182, R184: a link unit reset, with READY-in as its pin stands; the free values go on (log 40). -/
def LinkUnit.reset (l : LinkUnit) : LinkUnit := { LinkUnit.fresh with readyIn := l.readyIn, draws := l.draws }

/-- Table 1-3, reset values. -/
def motorConfigReset : MotorConfig :=
  { dutyLimit := 1000, kp := 400, kv := 80, ki := 12, kf := 240, stallCurrent := 1500, stallSpeed := 20,
    stallTime := 300, tripCurrent := 3500, polarity := .normal, lossAction := .brake }

/-- Table 1-6. -/
def Motor.reset : Motor :=
  { state := .idle, position := 0, history := List.replicate 16 0, vmeas := 0, iAvg := 0, overCount := 0,
    config := motorConfigReset, pendingConfig := .empty, refPos := 0, refFrac := 0, vRef := 0, accFrac := 0,
    integ := 0, limited := .clear, u := 0, uLim := 0, uOut := 0, starved := false, active := none, queue := [],
    stallMs := 0 }

/-- R59. -/
def Governor.reset : Governor :=
  { budget := 3000, motors := Vector.replicate 6 ⟨0, 0⟩, voices := Vector.replicate 4 ⟨0, 0⟩ }

/-- R159. -/
def Claim.none : Claim := { owner := Option.none, lease := Option.none }

/-- Table 5-4, with RESET_ALL going out (R95). -/
def Chain.reset : Chain :=
  { state := .reset, inFlight := some .resetAll, modules := [], overlong := false, failedA := false,
    failedB := false, selected := .retA, syncPeriod := 40, threshold := 64, sticky := false, syncPending := false,
    roundStamp := 0, round := [], queue := [], aside := [], faultCount := 0, trainTries := 0, found := [],
    callTries := 0, configTodo := [], restLeft := none, trainLeft := none, probeLeft := none, retryLeft := none,
    syncLeft := none }

/-- The UNMAPPED values of Table 6-3 (R119). -/
def Channel.unmapped : Channel :=
  { state := .unmapped, primary := none, spare := none, kind := 0, valueCount := 0, num := 1, den := 1, offset := 0,
    serving := .primary, values := Vector.replicate 8 0, fresh := false, stamp := 0, poor := false, staleAt := none }

/-- An invalid window keeps no rights and no lock (R137). -/
def Window.invalid : Window :=
  { valid := false, base := 0, size := 0, programWrite := false, tabletWrite := false, playable := false,
    locked := false }

/-- R137: window 0 after power-on. -/
def Window.whole : Window :=
  { valid := true, base := 0, size := 262144, programWrite := true, tabletWrite := false, playable := true,
    locked := false }

/-- R157. -/
def Voice.reset : Voice :=
  { state := .idle, cueEntry := none, cue := none, position := 0, half := false, repeats := .left 0, phase := 0,
    level := 1024, target := 0, gain := 0, ceiling := 0, fadeReason := none, fadeLink := none }

/-- The machine right after power-on (R184 and the reset rule of each chapter). LINK_UP is low, READY-in high, and
the other pins low (log 7). The program link holds its STARTED notice. -/
def State.reset : State :=
  { time := 0, linkUp := false, resetTaken := false,
    program := { LinkUnit.fresh with notices := [⟨false, .started .powerOn 0⟩] },
    tablet := LinkUnit.fresh,
    motorClaims := Vector.replicate 6 Claim.none, voiceClaims := Vector.replicate 4 Claim.none,
    motors := Vector.replicate 6 Motor.reset, encoder := Vector.replicate 6 ⟨false, false⟩,
    pwm := Vector.replicate 6 ⟨.low, .low⟩, governor := Governor.reset,
    chains := Vector.replicate 4 Chain.reset, channels := Vector.replicate 16 Channel.unmapped, copy := none,
    watches := Vector.replicate 16 none, reactions := Vector.replicate 16 none, store := [],
    windows := #v[Window.whole, Window.invalid, Window.invalid, Window.invalid],
    clips := Vector.replicate 48 none, cues := Vector.replicate 64 none, voices := Vector.replicate 4 Voice.reset,
    master := 768, aout := 0, subs := Vector.replicate 24 none, pending := [] }

end Sys2Proof.Machine
end

