-- ==== Sys2Proof/Machine/Ops.lean ====
section
/-! DEFINITION. The operations that every block shares: reading and replacing one record of a bank, the clip
store's bytes, notice queues, reply slots, the taking of a request, owners and leases, and the governor's answer. -/

namespace Sys2Proof.Machine

abbrev Out := Host.Outcome State Fault Refusal

/-! ### Banks of records -/

def allMotors : List MotorId := [0, 1, 2, 3, 4, 5]
def allVoices : List VoiceId := [0, 1, 2, 3]
def allPorts : List PortId := [0, 1, 2, 3]
def allPositions : List ModulePos := [0, 1, 2, 3]
def allChannels : List ChannelId := [0, 1, 2, 3, 4, 5, 6, 7, 8, 9, 10, 11, 12, 13, 14, 15]
def allEntries : List EntryId := [0, 1, 2, 3, 4, 5, 6, 7, 8, 9, 10, 11, 12, 13, 14, 15]
def allWindows : List WindowId := [0, 1, 2, 3]
def allSlots : List (Fin 8) := [0, 1, 2, 3, 4, 5, 6, 7]
def allSubs : List SubId :=
  [0, 1, 2, 3, 4, 5, 6, 7, 8, 9, 10, 11, 12, 13, 14, 15, 16, 17, 18, 19, 20, 21, 22, 23]
def allClips : List ClipId :=
  [0, 1, 2, 3, 4, 5, 6, 7, 8, 9, 10, 11, 12, 13, 14, 15, 16, 17, 18, 19, 20, 21, 22, 23] ++
  [24, 25, 26, 27, 28, 29, 30, 31, 32, 33, 34, 35, 36, 37, 38, 39, 40, 41, 42, 43, 44, 45, 46, 47]
def allCues : List CueId :=
  [0, 1, 2, 3, 4, 5, 6, 7, 8, 9, 10, 11, 12, 13, 14, 15, 16, 17, 18, 19, 20, 21, 22, 23] ++
  [24, 25, 26, 27, 28, 29, 30, 31, 32, 33, 34, 35, 36, 37, 38, 39, 40, 41, 42, 43, 44, 45, 46, 47] ++
  [48, 49, 50, 51, 52, 53, 54, 55, 56, 57, 58, 59, 60, 61, 62, 63]

/-- The resources in the order M0–M5, V0–V3 (R161). -/
def allResources : List Resource := allMotors.map .motor ++ allVoices.map .voice

def State.motor (s : State) (m : MotorId) : Motor := s.motors[m]
def State.setMotor (s : State) (m : MotorId) (x : Motor) : State := { s with motors := s.motors.set m x }
def State.modMotor (s : State) (m : MotorId) (f : Motor → Motor) : State := s.setMotor m (f (s.motor m))

def State.voice (s : State) (v : VoiceId) : Voice := s.voices[v]
def State.setVoice (s : State) (v : VoiceId) (x : Voice) : State := { s with voices := s.voices.set v x }
def State.modVoice (s : State) (v : VoiceId) (f : Voice → Voice) : State := s.setVoice v (f (s.voice v))

def State.chain (s : State) (p : PortId) : Chain := s.chains[p]
def State.setChain (s : State) (p : PortId) (x : Chain) : State := { s with chains := s.chains.set p x }
def State.modChain (s : State) (p : PortId) (f : Chain → Chain) : State := s.setChain p (f (s.chain p))

def State.channel (s : State) (c : ChannelId) : Channel := s.channels[c]
def State.setChannel (s : State) (c : ChannelId) (x : Channel) : State := { s with channels := s.channels.set c x }
def State.modChannel (s : State) (c : ChannelId) (f : Channel → Channel) : State := s.setChannel c (f (s.channel c))

def State.watch (s : State) (n : EntryId) : Option Watch := s.watches[n]
def State.setWatch (s : State) (n : EntryId) (x : Option Watch) : State := { s with watches := s.watches.set n x }

def State.reaction (s : State) (n : EntryId) : Option Reaction := s.reactions[n]
def State.setReaction (s : State) (n : EntryId) (x : Option Reaction) : State :=
  { s with reactions := s.reactions.set n x }

def State.clip (s : State) (n : ClipId) : Option Clip := s.clips[n]
def State.setClip (s : State) (n : ClipId) (x : Option Clip) : State := { s with clips := s.clips.set n x }

def State.cue (s : State) (n : CueId) : Option Cue := s.cues[n]
def State.setCue (s : State) (n : CueId) (x : Option Cue) : State := { s with cues := s.cues.set n x }

def State.sub (s : State) (n : SubId) : Option Subscription := s.subs[n]
def State.setSub (s : State) (n : SubId) (x : Option Subscription) : State := { s with subs := s.subs.set n x }

/-- The record of a module, if its chain holds one at that position (R98). -/
def State.module (s : State) (p : PortId) (k : ModulePos) : Option ModuleRecord := (s.chain p).modules[k.val]?

def State.setModule (s : State) (p : PortId) (k : ModulePos) (r : ModuleRecord) : State :=
  s.modChain p fun c => { c with modules := c.modules.set k.val r }

def State.link (s : State) : Source → LinkUnit
  | .program => s.program
  | .tablet => s.tablet

def State.setLink (s : State) (src : Source) (l : LinkUnit) : State :=
  match src with
  | .program => { s with program := l }
  | .tablet => { s with tablet := l }

/-! ### The clip store (R136) -/

/-- The byte at an offset: an offset not listed reads 00h, its power-on content (R136). -/
def Store.read : List Host.Cell → Nat → Byte
  | [], _ => 0
  | (b, v) :: rest, a => if a = b then v else Store.read rest a

/-- A byte written, with the canonical form kept: offsets rising, no entry of value 00h. -/
def Store.write : List Host.Cell → Nat → Byte → List Host.Cell
  | [], a, v => if v = 0 then [] else [(a, v)]
  | (b, w) :: rest, a, v =>
    if a < b then (if v = 0 then (b, w) :: rest else (a, v) :: (b, w) :: rest)
    else if a = b then (if v = 0 then rest else (a, v) :: rest)
    else (b, w) :: Store.write rest a v

/-- A run of bytes written from an offset on. -/
def Store.writeRun : List Host.Cell → Nat → List Byte → List Host.Cell
  | cells, _, [] => cells
  | cells, a, v :: rest => Store.writeRun (Store.write cells a v) (a + 1) rest

/-- A run of `n` bytes read from an offset on. -/
def Store.readRun (cells : List Host.Cell) : Nat → Nat → List Byte
  | _, 0 => []
  | a, n + 1 => Store.read cells a :: Store.readRun cells (a + 1) n

/-- Offsets strictly rising from `lo` on, and no entry equal to what an unlisted offset reads as. -/
def Store.wfFrom : Nat → List Host.Cell → Bool
  | _, [] => true
  | lo, (a, v) :: rest => lo ≤ a && v ≠ 0 && Store.wfFrom (a + 1) rest

/-- The canonical form of the clip store. -/
def Store.wf (cells : List Host.Cell) : Bool := Store.wfFrom 0 cells

/-- The number of bytes of the clip store (R136). -/
def storeSize : Nat := 262144

/-! ### Notices (R180) -/

/-- R180: a notice joins the queue's tail, carrying OVERFLOW when notices were lost before it, or is dropped and
sets the overflow flag when the queue holds 16. -/
def LinkUnit.place (l : LinkUnit) (b : NoticeBody) : LinkUnit :=
  if l.notices.length < 16 then { l with notices := l.notices ++ [⟨l.overflow, b⟩], overflow := false }
  else { l with overflow := true }

/-- R180: a notice whose link is the tablet link is not placed while LINK_UP is low. -/
def State.place (s : State) (link : Source) (b : NoticeBody) : State :=
  if link = .tablet ∧ s.linkUp = false then s else s.setLink link ((s.link link).place b)

/-- A notice that goes to both links (R96, R104, R118, R161). -/
def State.placeBoth (s : State) (b : NoticeBody) : State := (s.place .program b).place .tablet b

/-! ### Reply slots (R178, R179) -/

/-- R178: a free reply slot, the lowest-numbered (log 17). -/
def LinkUnit.freeSlot (l : LinkUnit) : Option (Fin 8) := allSlots.find? fun i => l.slots[i].isNone

/-- R176: whether the link takes frames: the tablet link while LINK_UP is high, the program link until a RESET
request is taken (R183). -/
def State.takesFrames (s : State) : Source → Bool
  | .program => !s.resetTaken
  | .tablet => s.linkUp

/-- R176, R178: READY-out is high while the link takes frames and a reply slot is free. -/
def State.readyOut (s : State) (link : Source) : Bool := s.takesFrames link && ((s.link link).freeSlot).isSome

def LinkUnit.reserve (l : LinkUnit) (i : Fin 8) (use : SlotUse) : LinkUnit :=
  { l with slots := l.slots.set i (some use) }

def LinkUnit.free (l : LinkUnit) (i : Fin 8) : LinkUnit := { l with slots := l.slots.set i none }

/-- R179: the reply in slot `i` becomes waiting; it has the kind of its request plus 80h and the request's TAG. A
reply whose slot has been freed meanwhile is discarded. -/
def LinkUnit.post (l : LinkUnit) (i : Fin 8) (r : Reply) : LinkUnit :=
  match l.slots[i] with
  | none => l
  | some use => { l with waiting := l.waiting ++ [⟨i, use.kind + 0x80#8, use.tag, r⟩] }

def State.post (s : State) (link : Source) (i : Fin 8) (r : Reply) : State :=
  s.setLink link ((s.link link).post i r)

/-- A refusal: the status byte alone (R179). -/
def Reply.refuse (st : Status) : Reply := ⟨st, false, .empty⟩

/-- An OK reply, with its CLAMPED flag and content (R179). -/
def Reply.ok (clamped : Bool) (body : ReplyBody) : Reply := ⟨.ok, clamped, body⟩

/-- The kind codes of Table 11-2. -/
def RequestKind.code : RequestKind → Byte
  | .ident => 0x01
  | .reset => 0x02
  | .claim => 0x08
  | .release => 0x09
  | .renew => 0x0A
  | .take => 0x0B
  | .motorSet => 0x10
  | .motorRead => 0x11
  | .zero => 0x12
  | .clearFault => 0x13
  | .seg => 0x14
  | .halt => 0x15
  | .budgetSet => 0x18
  | .budgetRead => 0x19
  | .chainRestart => 0x20
  | .chainSet => 0x21
  | .chainRead => 0x22
  | .moduleRead => 0x23
  | .modulePageWrite => 0x24
  | .modulePageRead => 0x25
  | .mapSet => 0x28
  | .mapClear => 0x29
  | .channelRead => 0x2A
  | .watchSet => 0x30
  | .watchClear => 0x31
  | .reactSet => 0x32
  | .reactClear => 0x33
  | .reactRead => 0x34
  | .windowSet => 0x38
  | .storeWrite => 0x39
  | .storeRead => 0x3A
  | .clipDefine => 0x3B
  | .clipRemove => 0x3C
  | .cueSet => 0x3D
  | .cueClear => 0x3E
  | .play => 0x3F
  | .stop => 0x40
  | .voiceGain => 0x41
  | .masterSet => 0x42
  | .subscribe => 0x48
  | .unsubscribe => 0x49

/-- The PROGRAM-only kinds (Table 9-3). -/
def RequestKind.programOnly (k : RequestKind) : Bool :=
  [.reset, .take, .budgetSet, .chainRestart, .chainSet, .modulePageWrite, .mapSet, .mapClear, .windowSet,
    .masterSet].contains k

/-! ### Claim records, and the link unit's own refusals (R159, R178) -/

def State.claim (s : State) : Resource → Claim
  | .motor m => s.motorClaims[m]
  | .voice v => s.voiceClaims[v]

def State.setClaim (s : State) (r : Resource) (c : Claim) : State :=
  match r with
  | .motor m => { s with motorClaims := s.motorClaims.set m c }
  | .voice v => { s with voiceClaims := s.voiceClaims.set v c }

/-- R159: the claim table as every reply to a claim request carries it: owner and lease remaining, or none. -/
def claimTable (s : State) : List (Option Source × Option Nat) :=
  allResources.map fun r => ((s.claim r).owner, (s.claim r).lease.map Lease.remaining)

/-- R159: the kinds whose every reply carries the claim table. -/
def RequestKind.repliesTable (k : RequestKind) : Bool := [.claim, .release, .renew, .take].contains k

/-- R159, R178, R179: a refusal that the link unit makes before the request reaches its block: the status alone, and
the claim table beside it in a reply to CLAIM, RELEASE, RENEW or TAKE (log 19). -/
def linkRefusal (k : RequestKind) (st : Status) (s : State) : Reply :=
  ⟨st, false, if RequestKind.repliesTable k then .claims (claimTable s) [] else .empty⟩

/-! ### Requests taken (R178, R179) -/

/-- R178: a complete request frame reserves a free slot and is judged: a PROGRAM-only kind from the tablet is
NOT_PERMITTED, and otherwise its block acts (`act` is told the slot) and answers, at once or later (`none`). A
frame that finds no free slot, or comes on a link that takes no frames, is discarded. -/
def serveLater (k : RequestKind) (src : Source) (tag : Byte) (act : Fin 8 → State → State × Option Reply)
    (s : State) : State :=
  if s.takesFrames src then
    match (s.link src).freeSlot with
    | none => s
    | some i =>
      let s1 := s.setLink src ((s.link src).reserve i ⟨RequestKind.code k, tag⟩)
      if RequestKind.programOnly k && src = .tablet then s1.post src i (linkRefusal k .notPermitted s1)
      else
        match act i s1 with
        | (s2, some r) => s2.post src i r
        | (s2, none) => s2
  else s

/-- A request that its block answers when it is taken (R179). -/
def serve (k : RequestKind) (src : Source) (tag : Byte) (act : State → State × Reply) (s : State) : State :=
  serveLater k src tag (fun _ s1 => ((act s1).1, some (act s1).2)) s

/-! ### Owners and leases (Chapter 9) -/

def State.owner (s : State) (r : Resource) : Option Source := (s.claim r).owner

/-- The link of a resource's owner, and the program link when the owner is NONE (R17, R40, R156). -/
def State.ownerLink (s : State) (r : Resource) : Source := (s.owner r).getD .program

/-- R163: the timer set back to its full period. -/
def Claim.restarted (c : Claim) : Claim :=
  { c with lease := c.lease.map fun l => { l with remaining := l.period } }

def State.restartLease (s : State) (r : Resource) : State := s.setClaim r (Claim.restarted (s.claim r))

/-- R10, R144, R163, R167: an owner-only request on a resource: NOT_OWNER unless the sender is its owner; an
accepted one restarts the resource's lease. -/
def ownerOnly (r : Resource) (src : Source) (act : State → State × Reply) (s : State) : State × Reply :=
  if s.owner r = some src then
    let (s1, reply) := act s
    if reply.status = .ok then (s1.restartLease r, reply) else (s1, reply)
  else (s, Reply.refuse .notOwner)

/-! ### The supply governor (Chapter 4) -/

def Governor.supply (g : Governor) : Resource → Supply
  | .motor m => g.motors[m]
  | .voice v => g.voices[v]

def Governor.setSupply (g : Governor) (r : Resource) (x : Supply) : Governor :=
  match r with
  | .motor m => { g with motors := g.motors.set m x }
  | .voice v => { g with voices := g.voices.set v x }

/-- The sum S of the ten grants (section 4.1). -/
def Governor.used (g : Governor) : Nat :=
  g.motors[0].grant + g.motors[1].grant + g.motors[2].grant + g.motors[3].grant + g.motors[4].grant +
    g.motors[5].grant + (g.voices[0].grant + g.voices[1].grant + g.voices[2].grant + g.voices[3].grant)

/-- The free current (section 4.1). -/
def Governor.free (g : Governor) : Nat := g.budget - g.used

/-- R60: the grant that answers an ask: min(ask, free + the grant held). -/
def Governor.offer (g : Governor) (r : Resource) (a : Nat) : Nat := min a (g.free + (g.supply r).grant)

def Governor.ask (g : Governor) (r : Resource) (a : Nat) : Governor := g.setSupply r ⟨g.offer r a, a⟩

/-- R63: the grant and the recorded ask set to 0. -/
def Governor.release (g : Governor) (r : Resource) : Governor := g.setSupply r ⟨0, 0⟩

def State.grant (s : State) (r : Resource) : Nat := (s.governor.supply r).grant
def State.askSupply (s : State) (r : Resource) (a : Nat) : State := { s with governor := s.governor.ask r a }
def State.releaseSupply (s : State) (r : Resource) : State := { s with governor := s.governor.release r }

end Sys2Proof.Machine
end

