-- ==== Sys2Proof/Machine/Clock.lean ====
section
/-! DEFINITION. One millisecond of the time base on an empty queue (log 1): part time advances, and the timers that
State holds run down. A timer that is due stays at 1 until its expiry is taken, which is a command (log 2). -/

namespace Sys2Proof.Machine

/-- A running timer one millisecond on. -/
def countDown (n : Nat) : Nat := if n ≤ 1 then n else n - 1

/-- R163: a lease timer one millisecond on. -/
def Claim.pass (c : Claim) : Claim :=
  { c with lease := c.lease.map fun l => { l with remaining := countDown l.remaining } }

/-- R99: a settle timer one millisecond on; it runs while the module is SETTLING. -/
def ModuleRecord.pass (r : ModuleRecord) : ModuleRecord :=
  { r with settleLeft := if r.state = .settling then countDown r.settleLeft else r.settleLeft }

/-- R75, R76, R81, R82, R84, R99: the timers of a chain one millisecond on. -/
def Chain.pass (c : Chain) : Chain :=
  { c with
    modules := c.modules.map ModuleRecord.pass, restLeft := c.restLeft.map countDown,
    trainLeft := c.trainLeft.map countDown, probeLeft := c.probeLeft.map countDown,
    retryLeft := c.retryLeft.map countDown, syncLeft := c.syncLeft.map countDown }

/-- R171: a period timer one millisecond on. -/
def Subscription.pass (x : Subscription) : Subscription := { x with periodLeft := countDown x.periodLeft }

def passClaims (s : State) : State := allResources.foldl (fun t r => t.setClaim r (Claim.pass (t.claim r))) s
def passChains (s : State) : State := allPorts.foldl (fun t p => t.modChain p Chain.pass) s
def passSubs (s : State) : State := allSubs.foldl (fun t n => t.setSub n ((t.sub n).map Subscription.pass)) s

/-- One millisecond in which nothing is commanded (log 1). -/
def idle (s : State) : State := passSubs (passChains (passClaims { s with time := s.time + 1 }))

end Sys2Proof.Machine
end

