-- ==== Sys2Proof/Machine/Pages.lean ====
section
/-! DEFINITION. The page-operation queue of a chain, and the pages of a module record (section 5.6, R98, R102). -/

namespace Sys2Proof.Machine

/-- The page numbers of section 5.6. -/
def pageNumber : Page → Nat
  | .format => 0
  | .range => 1
  | .rate => 2
  | .start => 3

def pageOf (n : Nat) : Option Page :=
  match n with
  | 0 => some .format
  | 1 => some .range
  | 2 => some .rate
  | 3 => some .start
  | _ => none

def zeroPage : PageBytes := Vector.replicate 8 0

/-- A shadow page of a record; `none` awaits its read. -/
def shadow (r : ModuleRecord) : Page → Option PageBytes
  | .format => r.format
  | .range => r.range
  | .rate => r.rate
  | .start => r.start

def setShadow (r : ModuleRecord) (page : Page) (bytes : PageBytes) : ModuleRecord :=
  match page with
  | .format => { r with format := some bytes }
  | .range => { r with range := some bytes }
  | .rate => { r with rate := some bytes }
  | .start => { r with start := some bytes }

/-- ACTIVE or DEGRADED: the states with sync, polls and page operations (Table 5-2). -/
def Chain.live (c : Chain) : Bool := c.state = .active || c.state = .degraded

/-- R88 steps 2 to 4: what refuses a page operation at a chain, if anything. -/
def pageRefusal (c : Chain) (k : ModulePos) : Option Status :=
  if c.live then
    match c.modules[k.val]? with
    | none => some .badValue
    | some r => if r.state = .absent then some .busy else none
  else some .busy

/-- R90: the held-aside copy write joins the tail as soon as operations leave the queue. Where several are held, as many
of them join as the queue has room for, in the order in which they were held (log 15). -/
def Chain.refill (c : Chain) : Chain :=
  { c with
    queue := c.queue ++ c.aside.take (8 - c.queue.length)
    aside := c.aside.drop (8 - c.queue.length) }

/-- R89: the head of the queue leaves it. -/
def Chain.dropHead (c : Chain) : Chain := Chain.refill { c with queue := c.queue.tail }

/-- R90: a copy write handed in: refused, queued, or held aside while the queue is full. -/
def handCopyWrite (p : PortId) (op : PageOp) (s : State) : Option State :=
  let c := s.chain p
  match pageRefusal c op.pos with
  | some _ => none
  | none =>
    if c.queue.length < 8 then some (s.setChain p { c with queue := c.queue ++ [op] })
    else some (s.setChain p { c with aside := c.aside ++ [op] })

/-- R117: the outcome of a copy write whose copy has ended goes nowhere. -/
def orphanCopy (op : PageOp) : PageOp :=
  match op.origin with
  | .copy => { op with origin := .orphan }
  | .request _ _ => op
  | .orphan => op

/-- R117: the writes of an ended copy stay where they wait, and their outcomes are discarded. -/
def orphanCopies (s : State) : State :=
  allPorts.foldl
    (fun t p => t.modChain p fun c => { c with queue := c.queue.map orphanCopy, aside := c.aside.map orphanCopy }) s

end Sys2Proof.Machine
end

