-- ==== Sys2Proof/Machine/Operands.lean ====
section
/-! DEFINITION. The fields of requests: the checks that refuse a value and the clamping that brings one into range
(Tables 1-3, 2-1, 7-1, 7-3, 8-3, 10-2). A checked record comes with its CLAMPED flag; `none` is BAD_VALUE. -/

namespace Sys2Proof.Machine

def Coded.get? : Coded α → Option α
  | .known a => some a
  | .outside => none

/-! ### Segments (Table 2-1, R20) -/

/-- The cruise speed of a MOVE or GOTO: the magnitude clamped to 10..4000, the sign kept (log 14). -/
def cruiseSpeed (x : Int) : Int := if x < 0 then -clampInt 10 4000 (-x) else clampInt 10 4000 x

/-- Table 2-1, speed: clamped by kind; HOLD ignores it and keeps it unchanged (R20). -/
def segmentSpeed (kind : SegKind) (x : Int) : Int :=
  match kind with
  | .speed => clampInt (-4000) 4000 x
  | .move => cruiseSpeed x
  | .goto => cruiseSpeed x
  | .hold => x

/-- Table 2-1, accel and decel: clamped, but for HOLD, which ignores them and keeps them unchanged (R20). -/
def segmentRate (kind : SegKind) (x : Nat) : Nat :=
  match kind with
  | .speed => clampNat 100 40000 x
  | .move => clampNat 100 40000 x
  | .goto => clampNat 100 40000 x
  | .hold => x

/-- Table 2-1, target: required and bounded for MOVE and GOTO, and absent for SPEED and HOLD. -/
def segmentTargetOk (kind : SegKind) (target : Option Int) : Bool :=
  match kind, target with
  | .move, some d => -10000000 ≤ d && d ≤ 10000000
  | .goto, some p => -1000000000 ≤ p && p ≤ 1000000000
  | .speed, none => true
  | .hold, none => true
  | .move, none => false
  | .goto, none => false
  | .speed, some _ => false
  | .hold, some _ => false

/-- Table 2-1, duration: for SPEED and HOLD only. -/
def segmentDurationOk (kind : SegKind) (duration : Option Nat) : Bool :=
  match kind with
  | .speed => true
  | .hold => true
  | .move => duration.isNone
  | .goto => duration.isNone

/-- Table 2-1, end condition: the checked condition and whether its threshold was clamped. -/
def checkCondition : RawCondition → Option (Condition × Bool)
  | .none => some (.none, false)
  | .stall => some (.stall, false)
  | .outside => none
  | .channel ch idx side threshold =>
    match index 16 ch, index 8 idx, Coded.get? side with
    | some c, some i, some sd =>
      some (.channel c i sd (clampInt (-1000000000) 1000000000 threshold),
        outOfRange (-1000000000) 1000000000 threshold)
    | _, _, _ => none

/-- R20: the checks of Table 2-1 that give BAD_VALUE, and the clamping of the fields that pass. -/
def checkSegment (r : RawSegment) : Option (Segment × Bool) :=
  match Coded.get? r.kind, Coded.get? r.endAction, checkCondition r.condition with
  | some kind, some endAction, some (condition, clampedCondition) =>
    if r.otherPresence || !segmentTargetOk kind r.target || r.accel = 0 || r.decel = 0 ||
        !segmentDurationOk kind r.duration then none
    else
      let speed := segmentSpeed kind r.speed
      let accel := segmentRate kind r.accel
      let decel := segmentRate kind r.decel
      let duration := r.duration.map fun d => clampNat 1 3600000 d
      some
        ({ kind, target := r.target, speed, accel, decel, duration, condition, endAction, tag := r.tag },
          clampedCondition || speed ≠ r.speed || accel ≠ r.accel || decel ≠ r.decel || duration ≠ r.duration)
  | _, _, _ => none

/-! ### Motor configuration (Table 1-3, R11) -/

/-- A present numeric field clamped to its range, and whether that changed it. -/
def clampField (lo hi : Nat) : Option Int → Option Nat × Bool
  | none => (none, false)
  | some x => (some (clampNat lo hi x), outOfRange lo hi x)

/-- R11: BAD_VALUE for a present enumerated field outside its enumeration. -/
def motorSetEnumsOk (f : MotorSetFields) : Bool :=
  f.polarity ≠ some .outside && f.lossAction ≠ some .outside

/-- R11: each present field but polarity as it is written into the pending configuration, over what is pending. -/
def mergePending (p : PendingConfig) (f : MotorSetFields) : PendingConfig :=
  { dutyLimit := (clampField 0 1000 f.dutyLimit).1 <|> p.dutyLimit
    kp := (clampField 0 65535 f.kp).1 <|> p.kp
    kv := (clampField 0 65535 f.kv).1 <|> p.kv
    ki := (clampField 0 65535 f.ki).1 <|> p.ki
    kf := (clampField 0 65535 f.kf).1 <|> p.kf
    stallCurrent := (clampField 100 4000 f.stallCurrent).1 <|> p.stallCurrent
    stallSpeed := (clampField 1 500 f.stallSpeed).1 <|> p.stallSpeed
    stallTime := (clampField 50 2000 f.stallTime).1 <|> p.stallTime
    tripCurrent := (clampField 100 6000 f.tripCurrent).1 <|> p.tripCurrent
    lossAction := (f.lossAction.bind Coded.get?) <|> p.lossAction }

/-- R11: the CLAMPED flag of a change set. -/
def motorSetClamped (f : MotorSetFields) : Bool :=
  (clampField 0 1000 f.dutyLimit).2 || (clampField 0 65535 f.kp).2 || (clampField 0 65535 f.kv).2 ||
    (clampField 0 65535 f.ki).2 || (clampField 0 65535 f.kf).2 || (clampField 100 4000 f.stallCurrent).2 ||
    (clampField 1 500 f.stallSpeed).2 || (clampField 50 2000 f.stallTime).2 || (clampField 100 6000 f.tripCurrent).2

/-- The configuration as the next adoption leaves it (R11, R12). -/
def adopted (c : MotorConfig) (p : PendingConfig) : MotorConfig :=
  { dutyLimit := p.dutyLimit.getD c.dutyLimit
    kp := p.kp.getD c.kp
    kv := p.kv.getD c.kv
    ki := p.ki.getD c.ki
    kf := p.kf.getD c.kf
    stallCurrent := p.stallCurrent.getD c.stallCurrent
    stallSpeed := p.stallSpeed.getD c.stallSpeed
    stallTime := p.stallTime.getD c.stallTime
    tripCurrent := p.tripCurrent.getD c.tripCurrent
    polarity := c.polarity
    lossAction := p.lossAction.getD c.lossAction }

/-! ### Claims (R160, R164) -/

/-- R160: the lease clamped by source; `none` is no lease. -/
def clampLease (src : Source) (lease : Nat) : Option Lease :=
  match src with
  | .tablet => let n := clampNat 100 5000 lease; some ⟨n, n⟩
  | .program => if lease = 0 then none else let n := clampNat 100 60000 lease; some ⟨n, n⟩

/-- R160: whether the lease was clamped; a PROGRAM lease of 0 means no lease and is not clamped. -/
def leaseClamped (src : Source) (lease : Nat) : Bool :=
  match src with
  | .tablet => outOfRange 100 5000 lease
  | .program => lease ≠ 0 && outOfRange 100 60000 lease

/-! ### Watches (Table 7-1, R121) -/

/-- R121: the number of a named entry is in range. -/
def entryOk (k : Nat) : RawEntry → Bool
  | .number n => n < k
  | .any => true

def clampValue (x : Int) : Int := clampInt (-1000000000) 1000000000 x
def valueClamped (x : Int) : Bool := outOfRange (-1000000000) 1000000000 x

/-- R121: the comparison with the numbers it uses, clamped, and whether any of them was clamped (hysteresis, which
CHANGE does not use, left out); `none` when lo is greater than hi after clamping. A CHANGE watch stores hysteresis 0,
which REACT_READ reports (R128): the spec gives the unused field no value (log 38). -/
def checkWatchTest (k : WatchKind) (f : WatchFields) : Option (WatchTest × Int × Bool) :=
  let h := clampInt 0 1000000 f.hysteresis
  let hc := outOfRange 0 1000000 f.hysteresis
  let bandClamped := valueClamped f.lo || valueClamped f.hi || hc
  match k with
  | .above => some (.above (clampValue f.threshold), h, valueClamped f.threshold || hc)
  | .below => some (.below (clampValue f.threshold), h, valueClamped f.threshold || hc)
  | .outside =>
    if clampValue f.hi < clampValue f.lo then none
    else some (.outside (clampValue f.lo) (clampValue f.hi), h, bandClamped)
  | .inside =>
    if clampValue f.hi < clampValue f.lo then none
    else some (.inside (clampValue f.lo) (clampValue f.hi), h, bandClamped)
  | .change => some (.change (clampInt 1 2000000000 f.delta), 0, outOfRange 1 2000000000 f.delta)

/-! ### Reactions (Table 7-3, R127) -/

/-- A resource by its number: 0 to 5 are M0–M5, and 6 to 9 are V0–V3. -/
def resourceOf (n : Nat) : Option Resource :=
  match index 6 n with
  | some m => some (.motor m)
  | none => (index 4 (n - 6)).map .voice

/-- Every name of a list, if none is outside the enumeration. -/
def knownAll : List (Coded α) → Option (List α)
  | [] => some []
  | .known a :: rest => (knownAll rest).map (a :: ·)
  | .outside :: _ => none

def checkTrigger : RawTrigger → Option Trigger
  | .watch n => (index 16 n).map .watch
  | .segmentEnd m none => (index 6 m).map (.segmentEnd · none)
  | .segmentEnd m (some rs) =>
    match index 6 m, knownAll rs with
    | some m, some rs => some (.segmentEnd m (some rs))
    | _, _ => none
  | .voiceEnd v => (index 4 v).map .voiceEnd
  | .claimEnd r => (resourceOf r).map .claimEnd
  | .chainState p none => (index 4 p).map (.chainState · none)
  | .chainState p (some st) =>
    match index 4 p, Coded.get? st with
    | some p, some st => some (.chainState p (some st))
    | _, _ => none
  | .outside => none

/-- R127: the action, with whether its stored segment was clamped. -/
def checkAction : RawAction → Option (Action × Bool)
  | .halt m a =>
    match index 6 m, Coded.get? a with
    | some m, some a => some (.halt m a, false)
    | _, _ => none
  | .segment m r replace =>
    match index 6 m, checkSegment r with
    | some m, some (seg, clamped) => some (.segment m seg replace, clamped)
    | _, _ => none
  | .play v cue =>
    match index 4 v, index 64 cue with
    | some v, some cue => some (.play v cue, false)
    | _, _ => none
  | .stop v fade => (index 4 v).map (.stop · fade, false)
  | .notify code => some (.notify code, false)
  | .outside => none

/-! ### Cues (Table 8-3, R142) -/

/-- R142: the cue's kind and fields, with whether any was clamped. That a repeat above 255 is taken as it is, is the
model's choice (log 43). -/
def checkCueBody : RawCueBody → Option (CueBody × Bool)
  | .clip clip start length rep gain =>
    match index 48 clip with
    | some c =>
      if start ≤ 262143 ∧ length ≤ 262144 then
        some (.clip c start length rep (clampNat 0 1024 gain), outOfRange 0 1024 gain)
      else none
    | none => none
  | .tone frequency duration wave gain =>
    match Coded.get? wave with
    | some w =>
      some (.tone (clampNat 20 8000 frequency) (clampNat 1 60000 duration) w (clampNat 0 1024 gain),
        outOfRange 20 8000 frequency || outOfRange 1 60000 duration || outOfRange 0 1024 gain)
    | none => none
  | .silence duration => some (.silence (clampNat 1 60000 duration), outOfRange 1 60000 duration)
  | .outside => none

def checkNext : RawNext → Option NextCue
  | .entry n => (index 64 n).map .entry
  | .finish => some .finish

/-! ### Subscriptions (Table 10-2, R169) -/

def checkItem : RawItem → Option Item
  | .channel ch idx =>
    match index 16 ch, index 8 idx with
    | some c, some i => some (.channel c i)
    | _, _ => none
  | .motorPos m => (index 6 m).map .motorPos
  | .motorSpeed m => (index 6 m).map .motorSpeed
  | .motorDuty m => (index 6 m).map .motorDuty
  | .motorState m => (index 6 m).map .motorState
  | .voiceState v => (index 4 v).map .voiceState
  | .budgetUsed => some .budgetUsed
  | .chainState p => (index 4 p).map .chainState
  | .outside => none

/-! ### Entries of a table (R121, R127, R140, R142) -/

/-- The outcome of placing a record at a named entry or at ANY. -/
inductive Placement (k : Nat) where
  | at (n : Fin k)
  | refused (st : Status)
deriving DecidableEq, Repr

/-- R121, R127, R140, R142, R167: a named entry is taken unless it holds a record of another creator and the sender is
TABLET; ANY takes the lowest-numbered empty entry of `all`, or is FULL. -/
def placeEntry (all : List (Fin k)) (creator : Fin k → Option Source) (src : Source) : RawEntry → Placement k
  | .number n =>
    match index k n with
    | none => .refused .badValue
    | some i =>
      match creator i with
      | some c => if src = .tablet ∧ c ≠ .tablet then .refused .notPermitted else .at i
      | none => .at i
  | .any =>
    match all.find? fun i => (creator i).isNone with
    | some i => .at i
    | none => .refused .full

end Sys2Proof.Machine
end

