-- ==== Sys2Proof/Machine/Flags.lean ====
section
/-! DEFINITION. The flags that the blocks compute: limited and starved of a motor, the stall condition, FAILING of
a module, usable and healthy for a channel, urgent of a subscription. -/

namespace Sys2Proof.Machine

/-! ### Limited and starved (R55 to R57) -/

/-- R56: POSITIVE or NEGATIVE when the output is not the law value, by the sign of the law value. -/
def limitedFlag (u uOut : Int) : Limited :=
  if uOut = u then .clear else if 0 < u then .positive else .negative

/-- R55: the ask that prices a clamped law value. -/
def motorAsk (uLim : Int) (stallCurrent : Nat) : Nat := uLim.natAbs * stallCurrent / 1000

/-- R55: the duty that a grant below its ask pays for, with the sign of the clamped law value. -/
def paidDuty (grant stallCurrent : Nat) (uLim : Int) : Int := signOf uLim * ((grant * 1000 / stallCurrent : Nat) : Int)

/-- R55, R57: the output duty for a grant: the clamped law value when the grant is the ask, else what it pays for. -/
def grantedDuty (grant stallCurrent : Nat) (uLim : Int) : Int :=
  if motorAsk uLim stallCurrent ≤ grant then uLim else paidDuty grant stallCurrent uLim

/-- R55, R69: starved when the grant is below the ask. -/
def starvedFlag (grant stallCurrent : Nat) (uLim : Int) : Bool := grant < motorAsk uLim stallCurrent

/-! ### Stall (R35) -/

/-- R35: nearly all the duty that duty_limit allows, and hardly any motion. -/
def stallCondition (c : MotorConfig) (uOut vmeas : Int) : Bool :=
  0 < c.dutyLimit && 9 * c.dutyLimit ≤ 10 * uOut.natAbs && vmeas.natAbs < c.stallSpeed

/-! ### Modules (R100, R101, R105) -/

/-- R101: the FAILING flag judged after a charged outcome. -/
def judgeFailing (threshold : Nat) (failing : Bool) (bucket : Nat) : Bool :=
  if failing then !(bucket < threshold / 2) else threshold ≤ bucket

/-- The outcome of a transaction (R72). -/
inductive TransactionOutcome where
  | success
  | badCheck
  | noAnswer
deriving DecidableEq, Repr

/-- R100, R101: a module record with an outcome charged to it. -/
def chargeModule (threshold : Nat) (o : TransactionOutcome) (r : ModuleRecord) : ModuleRecord :=
  let bucket := match o with
    | .success => r.bucket - 1
    | .badCheck => min 255 (r.bucket + 8)
    | .noAnswer => min 255 (r.bucket + 8)
  let misses := match o with
    | .success => 0
    | .badCheck => r.misses
    | .noAnswer => min 4 (r.misses + 1)
  { r with bucket := bucket, misses := misses, failing := judgeFailing threshold r.failing bucket }

/-- R105: the module can serve the channel, by its record as it stands. -/
def usableRecord (c : Channel) : Option ModuleRecord → Bool
  | none => false
  | some r => r.kind = c.kind && c.valueCount ≤ r.valueCount && (r.state = .settling || r.state = .ready)

/-- R105: usable, READY and not FAILING. -/
def healthyRecord (c : Channel) (r : Option ModuleRecord) : Bool :=
  match r with
  | none => false
  | some m => usableRecord c r && m.state = .ready && !m.failing

/-- R112: "S falls": not usable, or FAILING. -/
def fallenRecord (c : Channel) (r : Option ModuleRecord) : Bool :=
  match r with
  | none => true
  | some m => !usableRecord c r || m.failing

/-! ### Telemetry (R172) -/

/-- R172: urgent when the wait has reached the latency limit. -/
def urgentAt (now : Word) (x : Subscription) : Bool :=
  x.due && x.latency ≠ 0 && x.latency ≤ (now - x.dueSince).toNat

end Sys2Proof.Machine
end

