-- ==== Sys2Proof/Machine/Motion.lean ====
section
/-! DEFINITION. The motion controller: state entry, stop actions, the start and the ends of segments, the profile
step, the control law and the stages of a control tick (Chapters 1 to 3). An operation answers the new state and the
SEGMENT_END events it hands to the reactions; its notices are placed in the new state. -/

namespace Sys2Proof.Machine

/-! ### State entry (R7) and stop actions (R9) -/

/-- R7: the entry effects of IDLE, BRAKED and FAULT on the context; u and u_lim as section 3.1 gives. -/
def Motor.rest (st : MotorState) (mo : Motor) : Motor :=
  { mo with
    state := st, u := 0, uLim := 0, uOut := 0, starved := false, limited := .clear, overCount := 0, stallMs := 0,
    queue := if st = .fault then [] else mo.queue }

/-- R7, R8, R63: entry to IDLE, BRAKED or FAULT; no effect when the motor is already there. -/
def enterRest (m : MotorId) (st : MotorState) (s : State) : State :=
  if (s.motor m).state = st then s else (s.modMotor m (Motor.rest st)).releaseSupply (.motor m)

/-- R9: the reference of a HOLD stop action: the position as it stands. -/
def Motor.referenceHere (mo : Motor) : Motor :=
  { mo with refPos := mo.position, refFrac := 0, vRef := 0, accFrac := 0 }

/-- R9: a HOLD stop action by the state the motor is in. -/
def Motor.holdStop (mo : Motor) : Motor :=
  match mo.state with
  | .running => { mo.referenceHere with state := .holding }
  | .idle => { mo.referenceHere with state := .holding, integ := 0, stallMs := 0 }
  | .braked => { mo.referenceHere with state := .holding, integ := 0, stallMs := 0 }
  | .holding => mo
  | .fault => mo

/-- Table 1-4: the state that a stop action gives. -/
def applyStop (m : MotorId) (action : StopAction) (s : State) : State :=
  match action with
  | .coast => enterRest m .idle s
  | .brake => enterRest m .braked s
  | .hold => s.modMotor m Motor.holdStop

/-- The active segment and the pending segments removed (R28, R9). -/
def Motor.cleared (mo : Motor) : Motor := { mo with active := none, queue := [] }

/-- R40: the SEGMENT_END notice, on the owner's link. -/
def endNotice (m : MotorId) (a : Active) (reason : EndReason) (blended : Bool) (pos : Word) (discarded : Nat)
    (s : State) : State :=
  s.place (s.ownerLink (.motor m)) (.segmentEnd m a.seg.tag reason blended pos discarded s.time)

/-- R9: a stop action; the active segment ends with `reason`, and FAULT is left alone. -/
def stopAction (m : MotorId) (reason : EndReason) (action : StopAction) (s : State) : State × List Event :=
  let mo := s.motor m
  if mo.state = .fault then (s, [])
  else
    let s1 := applyStop m action (s.modMotor m Motor.cleared)
    match mo.active with
    | none => (s1, [])
    | some a =>
      (endNotice m a reason false mo.position mo.queue.length s1, [.segmentEnd m a.seg.tag reason false])

/-! ### Segment ends (R28, R29) -/

/-- Where the reference of a HOLD end action comes from (Table 2-4). -/
inductive HoldRef where
  | arrived
  | asStands
  | here (p : Word)
deriving DecidableEq, Repr

def Motor.holdReference (mo : Motor) : HoldRef → Motor
  | .arrived => { mo with vRef := 0, accFrac := 0 }
  | .asStands => { mo with refFrac := 0, vRef := 0, accFrac := 0 }
  | .here p => { mo with refPos := p, refFrac := 0, vRef := 0, accFrac := 0 }

/-- Table 2-4; BLEND is taken as HOLD when the end is not a handover (R29, R30). -/
def applyEndAction (m : MotorId) (e : EndAction) (ref : HoldRef) (s : State) : State :=
  match e with
  | .coast => enterRest m .idle s
  | .brake => enterRest m .braked s
  | .hold => s.modMotor m fun mo => { mo.holdReference ref with state := .holding }
  | .blend => s.modMotor m fun mo => { mo.holdReference ref with state := .holding }

/-- R28, R29: an end by DONE, CONDITION or STALL_OK: the end action applies and the pending segments stay. -/
def endByAction (m : MotorId) (reason : EndReason) (ref : HoldRef) (pos : Word) (s : State) : State × List Event :=
  match (s.motor m).active with
  | none => (s, [])
  | some a =>
    let s1 := applyEndAction m a.seg.endAction ref (s.modMotor m fun mo => { mo with active := none })
    (endNotice m a reason false pos 0 s1, [.segmentEnd m a.seg.tag reason false])

/-- R28, Table 2-3: an end by STALLED, SENSOR_LOST or FAULT: the pending segments are discarded and the state is
forced. -/
def endByForce (m : MotorId) (reason : EndReason) (st : MotorState) (pos : Word) (s : State) : State × List Event :=
  match (s.motor m).active with
  | none => (s, [])
  | some a =>
    let s1 := enterRest m st (s.modMotor m Motor.cleared)
    (endNotice m a reason false pos (s.motor m).queue.length s1, [.segmentEnd m a.seg.tag reason false])

/-! ### Starting a segment (R23, R24) -/

def dirSign : Direction → Int
  | .forward => 1
  | .backward => -1

def directionOf (x : Int) : Option Direction := if 0 < x then some .forward else if x < 0 then some .backward else none

/-- R30: the direction of a queue head against a reference; `none` when it has none. -/
def headDirection (seg : Segment) (refPos : Word) : Option Direction :=
  match seg.kind with
  | .speed => directionOf seg.speed
  | .move => directionOf (seg.target.getD 0)
  | .goto => directionOf (Word.diff (BitVec.ofInt 32 (seg.target.getD 0)) refPos)
  | .hold => none

/-- R23: the direction at activation: +1 for a MOVE or GOTO with nothing to travel. -/
def startDirection (seg : Segment) (refPos : Word) : Option Direction :=
  match seg.kind with
  | .speed => headDirection seg refPos
  | .move => some ((headDirection seg refPos).getD .forward)
  | .goto => some ((headDirection seg refPos).getD .forward)
  | .hold => none

/-- R24: the direction at a handover: a MOVE or GOTO takes the direction of travel. -/
def carriedDirection (seg : Segment) (travel : Option Direction) : Option Direction :=
  match seg.kind with
  | .speed => directionOf seg.speed
  | .move => travel
  | .goto => travel
  | .hold => none

/-- R23: the target position of a MOVE or GOTO. -/
def targetOf (seg : Segment) (refPos : Word) : Option Word :=
  match seg.kind with
  | .move => some (refPos + BitVec.ofInt 32 (seg.target.getD 0))
  | .goto => some (BitVec.ofInt 32 (seg.target.getD 0))
  | .speed => none
  | .hold => none

/-- R23: the run-time fields of a segment that becomes active. -/
def activate (seg : Segment) (refPos : Word) (dir : Option Direction) : Active :=
  { seg, target := targetOf seg refPos, direction := dir,
    phase := if seg.kind = .hold then .cruise else .accel, elapsed := 0, blend := .undecided }

/-- R23, R34: a channel that gives no samples to an end condition: UNMAPPED or LOST. -/
def channelGone (c : Channel) : Bool := c.state = .unmapped || c.state = .lost

def conditionGone (s : State) (seg : Segment) : Bool :=
  match seg.condition with
  | .channel ch _ _ _ => channelGone (s.channel ch)
  | .none => false
  | .stall => false

/-- The position sampled at stage 2 of the latest tick (R43): the newest entry of the history. -/
def Motor.sampled (mo : Motor) : Word := mo.history.getLastD mo.position

/-- R23, R24: a segment whose condition channel is UNMAPPED or LOST ends at once with SENSOR_LOST. -/
def endIfGone (m : MotorId) (s : State) : State × List Event :=
  match (s.motor m).active with
  | none => (s, [])
  | some a =>
    if conditionGone s a.seg then endByForce m .sensorLost .braked (s.motor m).sampled s else (s, [])

/-- R23: the reference that the head of the queue starts from. -/
def Motor.startReference (mo : Motor) : Motor :=
  match mo.state with
  | .idle => { mo with refPos := mo.sampled, refFrac := 0, vRef := 0, accFrac := 0, integ := 0 }
  | .braked => { mo with refPos := mo.sampled, refFrac := 0, vRef := 0, accFrac := 0, integ := 0 }
  | .holding => mo
  | .running => mo
  | .fault => mo

/-- R23: the queue head becomes the active segment. -/
def Motor.startHead (mo : Motor) : Motor :=
  match mo.queue with
  | [] => mo
  | seg :: rest =>
    let mo1 := mo.startReference
    { mo1 with
      state := .running, queue := rest,
      active := some (activate seg mo1.refPos (startDirection seg mo1.refPos)) }

/-- Stage 4 (R23): in IDLE, BRAKED or HOLDING the queue head, if any, is activated. -/
def startStage (m : MotorId) (s : State) : State × List Event :=
  let mo := s.motor m
  if (mo.state = .idle ∨ mo.state = .braked ∨ mo.state = .holding) ∧ mo.queue ≠ [] then
    endIfGone m (s.modMotor m Motor.startHead)
  else (s, [])

/-! ### The profile step (R44 to R50) -/

/-- R49: the remaining distance R. -/
def remaining (refPos : Word) (a : Active) : Int :=
  match a.target, a.direction with
  | some t, some d => Word.diff t refPos * dirSign d
  | _, _ => 0

/-- R49: the braking distance B. -/
def brakingDistance (vRef : Int) (decel : Nat) : Int := divZero (vRef * vRef) (2 * decel)

def isTravel (k : SegKind) : Bool := k = .move || k = .goto

/-- R30, R32: the blend test on the queue head. -/
def blendTest (mo : Motor) (a : Active) : Bool :=
  match mo.queue, a.direction with
  | h :: _, some d => headDirection h mo.refPos = some d
  | _, _ => false

/-- Part 1 (R49, R26, R30): the braking test, and the blend decision of a BLEND segment. -/
def brakingTest (mo : Motor) (a : Active) : Active :=
  if isTravel a.seg.kind ∧ (a.phase = .accel ∨ a.phase = .cruise) ∧
      remaining mo.refPos a ≤ brakingDistance mo.vRef a.seg.decel then
    if a.seg.endAction = .blend then
      if blendTest mo a then { a with phase := .through, blend := .blend }
      else { a with phase := .decel, blend := .noBlend }
    else { a with phase := .decel }
  else a

/-- Table 3-3: the target speed vt of the step. -/
def targetSpeed (a : Active) : Int :=
  match a.seg.kind with
  | .speed => if a.phase = .stopping then 0 else a.seg.speed
  | .move => if a.phase = .decel then 0 else a.seg.speed.natAbs * ((a.direction.map dirSign).getD 0)
  | .goto => if a.phase = .decel then 0 else a.seg.speed.natAbs * ((a.direction.map dirSign).getD 0)
  | .hold => 0

/-- R45: the rate of a step: accel away from 0, decel toward 0. -/
def stepRate (vRef vt : Int) (accel decel : Nat) : Int :=
  if vRef = 0 ∨ (signOf vRef = signOf vt ∧ vRef.natAbs < vt.natAbs) then accel else decel

/-- R45: the speed a step may reach: 0 when v_ref and vt have opposite signs, else vt. -/
def stepGoal (vRef vt : Int) : Int := if vRef * vt < 0 then 0 else vt

/-- v moved toward `goal` by dv, not past it (R46). -/
def moveToward (v goal dv : Int) : Int := if v < goal then min goal (v + dv) else max goal (v - dv)

/-- Part 2 (R45, R46): v_ref and acc_frac after the speed change. -/
def changeSpeed (vRef accFrac vt : Int) (accel decel : Nat) : Int × Int :=
  if vRef = vt then (vRef, 0)
  else
    let sum := accFrac + stepRate vRef vt accel decel
    let v := moveToward vRef (stepGoal vRef vt) (sum / 1000)
    if v = vt then (vt, 0) else (v, sum % 1000)

/-- Part 3 (R47): the creep floor of a MOVE or GOTO in DECEL. -/
def creepFloor (a : Active) (v : Int) : Int :=
  match a.direction with
  | some d => if isTravel a.seg.kind ∧ a.phase = .decel ∧ v * dirSign d < 10 then 10 * dirSign d else v
  | none => v

/-- Part 4 (R45): ACCEL passes to CRUISE when v_ref equals vt. -/
def phaseAdvance (a : Active) (v : Int) : Active :=
  if a.seg.kind ≠ .hold ∧ a.phase = .accel ∧ v = targetSpeed a then { a with phase := .cruise } else a

/-- Part 5 (R48): the reference advanced by v_ref for one millisecond. -/
def Motor.advance (mo : Motor) : Motor :=
  let t := mo.refFrac + mo.vRef
  { mo with refPos := mo.refPos + BitVec.ofInt 32 (t / 1000), refFrac := t % 1000 }

/-- Parts 1 to 5 of a profile step (Table 3-2). -/
def Motor.stepReference (mo : Motor) (a : Active) : Motor :=
  let a1 := brakingTest mo a
  let (v, frac) := changeSpeed mo.vRef mo.accFrac (targetSpeed a1) a1.seg.accel a1.seg.decel
  let v1 := creepFloor a1 v
  Motor.advance { mo with vRef := v1, accFrac := frac, active := some (phaseAdvance a1 v1) }

/-- R31, R24: the queue head takes over from the active segment `a`, which ends DONE with BLENDED. -/
def handover (m : MotorId) (a : Active) (s : State) : State × List Event :=
  let mo := s.motor m
  match mo.queue with
  | [] => endByAction m .done .arrived mo.sampled s
  | h :: rest =>
    let next := activate h mo.refPos (carriedDirection h a.direction)
    let s1 := s.modMotor m fun x => { x with active := some next, queue := rest }
    let s2 := endNotice m a .done true mo.sampled 0 s1
    let (s3, events) := endIfGone m s2
    (s3, .segmentEnd m a.seg.tag .done true :: events)

/-- Part 6 (R50, R26): the arrival of a MOVE or GOTO in DECEL or THROUGH. -/
def arrivalTest (m : MotorId) (a : Active) (s : State) : State × List Event :=
  let mo := s.motor m
  if remaining mo.refPos a ≤ 0 then
    match a.phase with
    | .decel =>
      endByAction m .done .arrived mo.sampled
        (s.modMotor m fun x =>
          { x with refPos := a.target.getD x.refPos, refFrac := 0, vRef := 0, accFrac := 0 })
    | .through =>
      handover m a (s.modMotor m fun x => { x with refPos := a.target.getD x.refPos, refFrac := 0 })
    | .accel => (s, [])
    | .cruise => (s, [])
    | .stopping => (s, [])
  else (s, [])

/-- Part 8 (R32): a SPEED segment in STOPPING ends when v_ref is 0. -/
def stoppingTest (m : MotorId) (s : State) : State × List Event :=
  let mo := s.motor m
  match mo.active with
  | none => (s, [])
  | some a =>
    if a.seg.kind = .speed ∧ a.phase = .stopping ∧ mo.vRef = 0 then endByAction m .done .asStands mo.sampled s
    else (s, [])

/-- R27, R32: the duration of a SPEED or HOLD segment has expired. -/
def durationExpired (m : MotorId) (s : State) : State × List Event :=
  let mo := s.motor m
  match mo.active with
  | none => (s, [])
  | some a =>
    if a.seg.endAction = .blend ∧ a.seg.kind = .speed then
      if blendTest mo a then handover m a s
      else stoppingTest m (s.modMotor m fun x => { x with active := some { a with phase := .stopping } })
    else endByAction m .done (.here mo.sampled) mo.sampled s

/-- Whether the active segment carries a duration that still runs (R27). -/
def durationRuns (a : Active) : Bool :=
  (a.seg.kind = .speed || a.seg.kind = .hold) && a.seg.duration.isSome && a.phase ≠ .stopping

/-- Parts 7 and 8 (R27, R32). -/
def durationTest (m : MotorId) (a : Active) (s : State) : State × List Event :=
  if durationRuns a then
    let s1 := s.modMotor m fun x => { x with active := some { a with elapsed := a.elapsed + 1 } }
    if a.seg.duration.getD 0 ≤ a.elapsed + 1 then durationExpired m s1 else (s1, [])
  else stoppingTest m s

/-- Stage 5 (R44): one profile step of the active segment. -/
def profileStage (m : MotorId) (s : State) : State × List Event :=
  let mo := s.motor m
  match mo.state, mo.active with
  | .running, some a =>
    let s1 := s.setMotor m (mo.stepReference a)
    match (s1.motor m).active with
    | none => (s1, [])
    | some a1 => if isTravel a1.seg.kind then arrivalTest m a1 s1 else durationTest m a1 s1
  | _, _ => (s, [])

/-! ### The other stages of a tick (Table 1-2) -/

/-- Stage 1 (R12). -/
def Motor.adopt (mo : Motor) : Motor :=
  { mo with config := adopted mo.config mo.pendingConfig, pendingConfig := .empty }

/-- R43: the measured speed from the position and the oldest entry of the history. -/
def measuredSpeed (p p16 : Word) : Int := clampInt (-1000000) 1000000 (divZero (Word.diff p p16 * 125) 2)

/-- Stage 2 (R3, R4, R43). -/
def Motor.measure (isense : Int) (mo : Motor) : Motor :=
  { mo with
    vmeas := measuredSpeed mo.position (mo.history.headD mo.position)
    history := mo.history.tail ++ [mo.position]
    iAvg := min 8000 isense.natAbs }

def Motor.driving (mo : Motor) : Bool := mo.state = .running || mo.state = .holding

/-- R17: a MOTOR_FAULT notice on the owner's link. -/
def faultNotice (m : MotorId) (cause : MotorFaultCause) (s : State) : State :=
  s.place (s.ownerLink (.motor m)) (.motorFault m cause (s.motor m).sampled (s.motor m).iAvg s.time)

/-- R16: a trip. -/
def takeTrip (m : MotorId) (s : State) : State × List Event :=
  let (s1, events) := endByForce m .fault .fault (s.motor m).sampled s
  (faultNotice m .trip (enterRest m .fault (s1.modMotor m Motor.cleared)), events)

/-- Stage 3 (R16). -/
def tripStage (m : MotorId) (s : State) : State × List Event :=
  let mo := s.motor m
  if mo.driving then
    let count := if mo.config.tripCurrent < mo.iAvg then mo.overCount + 1 else 0
    let s1 := s.modMotor m fun x => { x with overCount := count }
    if 2 ≤ count then takeTrip m s1 else (s1, [])
  else (s, [])

/-- R52: the position error. -/
def Motor.posError (mo : Motor) : Int := clampInt (-4096) 4096 (Word.diff mo.refPos mo.sampled)

/-- R52: the speed error. -/
def Motor.speedError (mo : Motor) : Int := clampInt (-8000) 8000 (mo.vRef - mo.vmeas)

/-- R53: the integrator, frozen in the direction in which the previous output was cut. -/
def Motor.nextInteg (mo : Motor) : Int :=
  if (mo.limited = .positive ∧ 0 < mo.speedError) ∨ (mo.limited = .negative ∧ mo.speedError < 0) then mo.integ
  else clampInt (-2000000) 2000000 (mo.integ + mo.speedError)

/-- R54: the law value. -/
def Motor.lawValue (mo : Motor) : Int :=
  divZero
    (mo.config.kp * mo.posError + mo.config.kv * mo.speedError + mo.config.ki * divZero mo.nextInteg 64 +
      mo.config.kf * mo.vRef) 1024

/-- Stage 6 (R52 to R54). -/
def Motor.law (mo : Motor) : Motor :=
  { mo with
    integ := mo.nextInteg, u := mo.lawValue,
    uLim := clampInt (-mo.config.dutyLimit) mo.config.dutyLimit mo.lawValue }

def lawStage (m : MotorId) (s : State) : State := if (s.motor m).driving then s.modMotor m Motor.law else s

/-- R55, R56: the output duty and the flags for a grant that answers the tick's ask. -/
def Motor.takeGrant (mo : Motor) (g : Nat) : Motor :=
  let out := grantedDuty g mo.config.stallCurrent mo.uLim
  { mo with
    uOut := out, starved := starvedFlag g mo.config.stallCurrent mo.uLim, limited := limitedFlag mo.u out }

/-- Stage 7 (R55, R61). -/
def grantStage (m : MotorId) (s : State) : State :=
  let mo := s.motor m
  if mo.driving then
    let s1 := s.askSupply (.motor m) (motorAsk mo.uLim mo.config.stallCurrent)
    s1.setMotor m (mo.takeGrant (s1.grant (.motor m)))
  else s

/-- R36: a stall. -/
def takeStall (m : MotorId) (s : State) : State × List Event :=
  let s1 := s.modMotor m fun x => { x with stallMs := 0 }
  let mo := s1.motor m
  match mo.state, mo.active with
  | .running, some a =>
    if a.seg.condition = .stall then endByAction m .stallOk (.here mo.sampled) mo.sampled s1
    else endByForce m .stalled .braked mo.sampled s1
  | .holding, none => (faultNotice m .stall (enterRest m .braked s1), [])
  | _, _ => (s1, [])

/-- Stage 9 (R35). -/
def stallStage (m : MotorId) (s : State) : State × List Event :=
  let mo := s.motor m
  if mo.driving then
    if stallCondition mo.config mo.uOut mo.vmeas then
      let s1 := s.modMotor m fun x => { x with stallMs := mo.stallMs + 1 }
      if mo.config.stallTime ≤ mo.stallMs + 1 then takeStall m s1 else (s1, [])
    else (s.modMotor m fun x => { x with stallMs := 0 }, [])
  else (s, [])

/-- R5, Table 1-2: the stages of a control tick, in order. Stage 8 sets the drive mode and the bridge duty from the
state and u_out, which `driveLevels` reads (log 21). -/
def controlTick (m : MotorId) (isense : Int) (s : State) : State × List Event :=
  let s2 := s.modMotor m fun mo => mo.adopt.measure isense
  let (s3, e3) := tripStage m s2
  let (s4, e4) := startStage m s3
  let (s5, e5) := profileStage m s4
  let (s9, e9) := stallStage m (grantStage m (lawStage m s5))
  (s9, e3 ++ e4 ++ e5 ++ e9)

/-! ### Drive outputs and encoder (R1, R2) -/

/-- R1: the levels of PWM A and PWM B by the motor's state, output duty and polarity. -/
def driveLevels (mo : Motor) : PwmPins :=
  let b := if mo.config.polarity = .reversed then -mo.uOut else mo.uOut
  let drive : PwmPins :=
    if 0 < b then ⟨.pulse b.natAbs, .low⟩ else if b < 0 then ⟨.low, .pulse b.natAbs⟩ else ⟨.low, .low⟩
  match mo.state with
  | .running => drive
  | .holding => drive
  | .idle => ⟨.low, .low⟩
  | .braked => ⟨.high, .high⟩
  | .fault => ⟨.low, .low⟩

/-- R2: the place of a line state in the forward sequence. -/
def linePlace (e : EncoderPins) : Fin 4 :=
  match e.a, e.b with
  | false, false => 0
  | true, false => 1
  | true, true => 2
  | false, true => 3

/-- R2: the counts of a change of the lines: a step forward, a step backward, or none. -/
def lineCounts (before after : EncoderPins) : Int :=
  if linePlace after = linePlace before + 1 then 1 else if linePlace before = linePlace after + 1 then -1 else 0

/-- R2: the position after a change of the lines, by polarity. -/
def Motor.count (mo : Motor) (n : Int) : Motor :=
  { mo with position := mo.position + BitVec.ofInt 32 (if mo.config.polarity = .reversed then -n else n) }

/-! ### Segments handed in (R22, R39) -/

/-- R22 steps 2 to 5: the first check that refuses a segment, if any. -/
def segmentRefusal (m : MotorId) (seg : Segment) (testFull : Bool) (s : State) : Option Status :=
  let mo := s.motor m
  let channelStatus : Option Status :=
    match seg.condition with
    | .channel ch idx _ _ =>
      if (s.channel ch).state = .unmapped then some .noSource
      else if (s.channel ch).valueCount ≤ idx.val then some .badValue
      else none
    | .none => none
    | .stall => none
  if mo.state = .fault then some .faulted
  else
    match channelStatus with
    | some st => some st
    | none => if testFull && 8 ≤ mo.queue.length then some .full else none

/-- R21: a segment joins the queue's tail. -/
def Motor.append (seg : Segment) (mo : Motor) : Motor := { mo with queue := mo.queue ++ [seg] }

/-- R39: a replacing segment: the active segment of a RUNNING motor ends with REPLACED and the motor holds at its
position; the segment becomes the queue's only entry. -/
def replaceSegment (m : MotorId) (seg : Segment) (s : State) : State × List Event :=
  let mo := s.motor m
  match mo.active with
  | some a =>
    let s1 := s.modMotor m fun x => { x.referenceHere with state := .holding, active := none, queue := [seg] }
    (endNotice m a .replaced false mo.position mo.queue.length s1, [.segmentEnd m a.seg.tag .replaced false])
  | none => (s.modMotor m fun x => { x with queue := [seg] }, [])

/-- R39: a reaction's segment handed in, or the status that refuses it. -/
def handIn (m : MotorId) (seg : Segment) (replace : Bool) (s : State) : Except Status (State × List Event) :=
  match segmentRefusal m seg (!replace) s with
  | some st => .error st
  | none => if replace then .ok (replaceSegment m seg s) else .ok (s.modMotor m (Motor.append seg), [])

/-! ### End conditions on channels (R33, R34) -/

/-- R33: whether a segment's end condition names the channel and is met by its values. -/
def conditionMet (ch : ChannelId) (c : Channel) (seg : Segment) : Bool :=
  match seg.condition with
  | .channel k idx side threshold =>
    k = ch && idx.val < c.valueCount &&
      match side with
      | .above => threshold < c.values[idx]
      | .below => c.values[idx] < threshold
  | .none => false
  | .stall => false

def conditionNames (ch : ChannelId) (seg : Segment) : Bool :=
  match seg.condition with
  | .channel k _ _ _ => k = ch
  | .none => false
  | .stall => false

/-- R33: a fresh sample of a channel tested against one motor's active segment. -/
def sampleAtMotor (ch : ChannelId) (m : MotorId) (s : State) : State × List Event :=
  match (s.motor m).active with
  | none => (s, [])
  | some a =>
    if conditionMet ch (s.channel ch) a.seg then
      endByAction m .condition (.here (s.motor m).position) (s.motor m).position s
    else (s, [])

/-- R34: the loss of a channel at one motor. -/
def lossAtMotor (ch : ChannelId) (m : MotorId) (s : State) : State × List Event :=
  match (s.motor m).active with
  | none => (s, [])
  | some a =>
    if conditionNames ch a.seg then endByForce m .sensorLost .braked (s.motor m).position s else (s, [])

/-! ### A lowered grant (R57, R67) -/

/-- R57, R67: the duty recomputed from a lowered grant. -/
def Motor.recompute (mo : Motor) (g : Nat) : Motor :=
  if mo.driving ∧ g < motorAsk mo.uLim mo.config.stallCurrent then
    { mo with
      uOut := paidDuty g mo.config.stallCurrent mo.uLim, starved := true,
      limited := if 0 < mo.u then .positive else if mo.u < 0 then .negative else .clear }
  else mo

end Sys2Proof.Machine
end

