-- ==== Sys2Proof/Machine/Voices.lean ====
section
/-! DEFINITION. The sound engine: windows and their rights, clips held by voices, the cue fetch, voice ends,
fades, the ramp, sample generation and the mixer (Chapter 8). The operations that end a voice are given `emit`,
which takes the VOICE_END event (Chapter 7). -/

namespace Sys2Proof.Machine

/-! ### Windows (R137) -/

def Window.covers (w : Window) (a : Nat) : Bool := w.valid && w.base ≤ a && a < w.base + w.size

/-- R137: the window an offset belongs to: the lowest-numbered valid one that covers it. -/
def windowAt (s : State) (a : Nat) : Option Window := s.windows.toList.find? fun w => Window.covers w a

/-- R137: any valid window with LOCKED set covers the offset. -/
def lockedAt (s : State) (a : Nat) : Bool := s.windows.toList.any fun w => Window.covers w a && w.locked

def Window.grants (w : Window) : Source → Bool
  | .program => w.programWrite
  | .tablet => w.tabletWrite

/-- R138: the sender's write right at an offset. -/
def mayWrite (s : State) (src : Source) (a : Nat) : Bool :=
  match windowAt s a with
  | some w => Window.grants w src
  | none => false

/-- R152: the PLAYABLE right at an offset. -/
def mayPlay (s : State) (a : Nat) : Bool :=
  match windowAt s a with
  | some w => w.playable
  | none => false

/-- The offsets of a range. -/
def offsets (base n : Nat) : List Nat := (List.range n).map (base + ·)

/-- R138 step 4: a byte of the range lies within a clip that a voice holds. -/
def touchesHeldClip (s : State) (base n : Nat) : Bool :=
  s.clips.toList.any fun c =>
    match c with
    | some c => 0 < c.inUse && max base c.base < min (base + n) (c.base + c.length)
    | none => false

/-! ### Clips held by voices (R141) -/

/-- The clip of the CLIP cue a voice is playing. -/
def heldClip (vo : Voice) : Option ClipId :=
  match vo.cue with
  | some ⟨.clip c _ _ _ _, _, _⟩ => some c
  | some ⟨.tone _ _ _ _, _, _⟩ => none
  | some ⟨.silence _, _, _⟩ => none
  | none => none

def changeUse (c : ClipId) (f : Nat → Nat) (s : State) : State :=
  match s.clip c with
  | some x => s.setClip c (some { x with inUse := f x.inUse })
  | none => s

/-- R145, R150: the clip a voice holds, if any, is released. -/
def releaseClip (v : VoiceId) (s : State) : State :=
  match heldClip (s.voice v) with
  | some c => changeUse c (· - 1) s
  | none => s

/-! ### Gain and current (R62) -/

def cueGain : CueBody → Nat
  | .clip _ _ _ _ gain => gain
  | .tone _ _ _ gain => gain
  | .silence _ => 0

/-- R62: the gain ceiling that a grant pays for. -/
def ceilingFor (target ask grant : Nat) : Nat := if grant = ask then target else grant * 1024 / 120

/-- R62: a voice's ask. -/
def voiceAsk (target : Nat) : Nat := target * 120 / 1024

/-- R62, R145, R149: a PLAYING voice's target from its cue and level, its ask, and its ceiling from the answer. -/
def retarget (v : VoiceId) (s : State) : State :=
  let vo := s.voice v
  match vo.cue with
  | none => s
  | some c =>
    let target := cueGain c.body * vo.level / 1024
    let s1 := s.askSupply (.voice v) (voiceAsk target)
    s1.setVoice v { vo with target := target, ceiling := ceilingFor target (voiceAsk target) (s1.grant (.voice v)) }

/-! ### Voice ends (R150, R156) -/

/-- A voice end to be reported: its notice's link and content, and its event. -/
structure VoiceReport where
  voice : VoiceId
  reason : VoiceEndReason
  link : Source
  cue : Option CueId
  clip : Option ClipId
deriving DecidableEq, Repr

/-- R150 step 2: the voice's fields once it is IDLE. -/
def quietVoice (vo : Voice) : Voice :=
  { vo with
    state := .idle, cueEntry := none, cue := none, target := 0, gain := 0, ceiling := 0, fadeReason := none,
    fadeLink := none }

/-- R150 steps 1 and 2, with what is to be reported. -/
def closeVoice (v : VoiceId) (reason : VoiceEndReason) (link : Source) (s : State) : State × VoiceReport :=
  let vo := s.voice v
  let s1 := (releaseClip v s).modVoice v quietVoice
  (s1.releaseSupply (.voice v), ⟨v, reason, link, vo.cueEntry, heldClip vo⟩)

/-- R156: an end without a fade reason goes to the owner's link. -/
def endVoice (v : VoiceId) (reason : VoiceEndReason) (s : State) : State × VoiceReport :=
  closeVoice v reason (s.ownerLink (.voice v)) s

/-- R148, R156: an end with the fade's reason, on the fade's link. -/
def endFade (v : VoiceId) (s : State) : State × VoiceReport :=
  closeVoice v ((s.voice v).fadeReason.getD .stopped) ((s.voice v).fadeLink.getD .program) s

/-- R150 steps 3 and 4. -/
def reportVoice (emit : Event → State → State) (r : VoiceReport) (s : State) : State :=
  emit (.voiceEnd r.voice r.reason) (s.place r.link (.voiceEnd r.voice r.reason r.cue r.clip s.time))

def reportMaybe (emit : Event → State → State) (r : Option VoiceReport) (s : State) : State :=
  match r with
  | some r => reportVoice emit r s
  | none => s

/-! ### The cue fetch (R145) -/

def sampleSize : ClipFormat → Nat
  | .pcm8At8k => 1
  | .pcm8At16k => 1
  | .pcm16At16k => 2

/-- R145: the region of a CLIP cue, if it holds a whole sample. -/
def regionOf (c : Clip) (start length : Nat) : Option Region :=
  let rest := c.length - start
  let n := if length = 0 then rest else min length rest
  if n < sampleSize c.format then none else some ⟨c.base, c.format, c.base + start, n⟩

def repeatsOf (rep : Nat) : Repeats := if rep = 255 then .endless else .left rep

/-- R145: the cue copied into the voice, at its first sample; in PLAYING the voice asks for current. -/
def takeCue (v : VoiceId) (n : CueId) (copy : CueCopy) (position : Nat) (rep : Repeats) (s : State) : State :=
  let s1 := s.modVoice v fun vo =>
    { vo with cueEntry := some n, cue := some copy, position := position, half := false, repeats := rep }
  if (s.voice v).state = .playing then retarget v s1 else s1

/-- R145: a fetch that ends the voice: in FADING with the fade's reason. -/
def endAtFetch (v : VoiceId) (reason : VoiceEndReason) (s : State) : State × Option VoiceReport :=
  let (s1, r) := if (s.voice v).state = .fading then endFade v s else endVoice v reason s
  (s1, some r)

/-- R145: a cue fetch; the voice is left with its new cue, or ended and to be reported. -/
def fetchCue (v : VoiceId) (next : NextCue) (s : State) : State × Option VoiceReport :=
  let s0 := (releaseClip v s).modVoice v fun vo => { vo with cue := none, cueEntry := none }
  match next with
  | .finish => endAtFetch v .finished s0
  | .entry n =>
    match s0.cue n with
    | none => endAtFetch v .brokenList s0
    | some cue =>
      match cue.body with
      | .clip c start length rep _ =>
        match s0.clip c with
        | none => endAtFetch v .badClip s0
        | some clip =>
          match regionOf clip start length with
          | none => endAtFetch v .badClip s0
          | some region =>
            (takeCue v n ⟨cue.body, cue.next, some region⟩ 0 (repeatsOf rep) (changeUse c (· + 1) s0), none)
      | .tone _ duration _ _ => (takeCue v n ⟨cue.body, cue.next, none⟩ (duration * 16) (.left 0) s0, none)
      | .silence duration => (takeCue v n ⟨cue.body, cue.next, none⟩ (duration * 16) (.left 0) s0, none)

/-! ### PLAY, STOP and fades (R144, R147, R148) -/

/-- R144: an accepted PLAY. A fetch that fails is reported at step 3, before the REPLACED end of step 4 (log 26). -/
def playVoice (emit : Event → State → State) (v : VoiceId) (n : CueId) (s : State) : State :=
  let (s1, replaced) :=
    if (s.voice v).state = .idle then (s, none) else
      let (t, r) := endVoice v .replaced s
      (t, some r)
  let s2 := s1.modVoice v fun vo => { vo with state := .playing, gain := 0, phase := 0 }
  let (s3, failed) := fetchCue v (.entry n) s2
  reportMaybe emit replaced (reportMaybe emit failed s3)

/-- R148: a fade-stop; it acts on a PLAYING voice alone. -/
def fadeStop (emit : Event → State → State) (v : VoiceId) (reason : VoiceEndReason) (s : State) : State :=
  let vo := s.voice v
  if vo.state = .playing then
    if vo.gain = 0 then
      let (s1, r) := endVoice v reason s
      reportVoice emit r s1
    else
      s.setVoice v
        { vo with
          state := .fading, target := 0, fadeReason := some reason, fadeLink := some (s.ownerLink (.voice v)) }
  else s

/-- R147: STOP with NOW. -/
def stopNow (emit : Event → State → State) (v : VoiceId) (s : State) : State :=
  if (s.voice v).state = .idle then s
  else
    let (s1, r) := endVoice v .stopped s
    reportVoice emit r s1

/-- R147. -/
def stopVoice (emit : Event → State → State) (v : VoiceId) (fade : Bool) (s : State) : State :=
  if fade then fadeStop emit v .stopped s else stopNow emit v s

/-! ### The ramp and the samples (R151 to R153) -/

/-- R151: one ramp step of 4 toward the target. -/
def rampGain (gain target : Nat) : Nat := if gain < target then min target (gain + 4) else max target (gain - 4)

/-- R151: the effective gain. -/
def effectiveGain (vo : Voice) : Nat := min vo.gain vo.ceiling

/-- R152: a stored byte as the voices read it: 00h without the PLAYABLE right. -/
def playedByte (s : State) (a : Nat) : Byte := if mayPlay s a then Store.read s.store a else 0

/-- R152: the raw sample of a CLIP cue. -/
def clipSample (s : State) (r : Region) (position : Nat) : Int :=
  let a := r.first + position
  match r.format with
  | .pcm8At8k => (playedByte s a).toInt * 256
  | .pcm8At16k => (playedByte s a).toInt * 256
  | .pcm16At16k => (playedByte s (a + 1) ++ playedByte s a).toInt

/-- R153: the phase increment of a tone. -/
def toneIncrement (frequency : Nat) : Word := BitVec.ofNat 32 ((frequency * 4294967296 + 8000) / 16000)

/-- R153: the raw sample of a TONE cue. -/
def toneSample (wave : Wave) (phase : Word) : Int :=
  let p := phase.toNat / 65536
  match wave with
  | .square => if p < 32768 then 16384 else -16384
  | .triangle => if p < 32768 then (p : Int) - 16384 else 49151 - (p : Int)

/-- R152, R153: a voice's raw sample. -/
def rawSample (s : State) (vo : Voice) : Int :=
  match vo.cue with
  | some ⟨.clip _ _ _ _ _, _, some r⟩ => clipSample s r vo.position
  | some ⟨.clip _ _ _ _ _, _, none⟩ => 0
  | some ⟨.tone _ _ wave _, _, _⟩ => toneSample wave vo.phase
  | some ⟨.silence _, _, _⟩ => 0
  | none => 0

/-! ### Advancing a cue (R146) -/

/-- R146: the place after a played sample: the half flag of PCM8_8K, and the next byte. -/
def nextPlace (f : ClipFormat) (position : Nat) (half : Bool) : Nat × Bool :=
  match f with
  | .pcm8At8k => if half then (position + 1, false) else (position, true)
  | .pcm8At16k => (position + 1, false)
  | .pcm16At16k => (position + 2, false)

/-- R146: the voice after its sample, and whether its cue has ended. -/
def advanceCue (vo : Voice) : Voice × Bool :=
  match vo.cue with
  | some ⟨.clip _ _ _ _ _, _, some r⟩ =>
    let (p, half) := nextPlace r.format vo.position vo.half
    if p + sampleSize r.format ≤ r.length then ({ vo with position := p, half := half }, false)
    else
      match vo.repeats with
      | .endless => ({ vo with position := 0, half := false }, false)
      | .left (k + 1) => ({ vo with position := 0, half := false, repeats := .left k }, false)
      | .left 0 => ({ vo with position := p, half := half }, true)
  | some ⟨.tone frequency _ _ _, _, _⟩ =>
    ({ vo with position := vo.position - 1, phase := vo.phase + toneIncrement frequency }, vo.position ≤ 1)
  | some ⟨.silence _, _, _⟩ => ({ vo with position := vo.position - 1 }, vo.position ≤ 1)
  | some ⟨.clip _ _ _ _ _, _, none⟩ => (vo, true)
  | none => (vo, false)

/-- What one voice does in an output sample event. -/
structure VoiceStep where
  state : State
  contribution : Int
  report : Option VoiceReport
  faded : Bool

/-- R151, R154, R146: one voice's ramp step, contribution and advance. A FADING voice whose gain reaches 0
contributes 0 and plays no further. -/
def stepVoice (v : VoiceId) (s : State) : VoiceStep :=
  let vo := s.voice v
  if vo.state = .idle then ⟨s, 0, none, false⟩
  else
    let ramped := { vo with gain := rampGain vo.gain vo.target }
    if ramped.state = .fading ∧ ramped.gain = 0 then ⟨s.setVoice v ramped, 0, none, true⟩
    else
      let c := divZero (rawSample s ramped * effectiveGain ramped) 1024
      let (moved, ended) := advanceCue ramped
      let s1 := s.setVoice v moved
      if ended then
        let (s2, r) := fetchCue v ((moved.cue.map CueCopy.next).getD .finish) s1
        ⟨s2, c, r, false⟩
      else ⟨s1, c, none, false⟩

/-- R154: the output sample. -/
def mix (sum : Int) (master : Nat) : Int := clampInt (-32768) 32767 (divZero (sum * master) 1024)

/-- R151: a voice whose fade has reached gain 0 ends once the sample has been formed; what is to be reported of the
voice is its fade's end or the end its fetch made. -/
def closeStep (v : VoiceId) (step : VoiceStep) (s : State) : State × List VoiceReport :=
  if step.faded then
    let (s1, r) := endFade v s
    (s1, [r])
  else (s, step.report.toList)

/-- R150, R151: after the sample has been formed, fades that have reached 0 end, and then every end is reported in voice
order (log 25). -/
def closeVoices (emit : Event → State → State) (a b c d : VoiceStep) (s : State) : State :=
  let (t0, r0) := closeStep 0 a s
  let (t1, r1) := closeStep 1 b t0
  let (t2, r2) := closeStep 2 c t1
  let (t3, r3) := closeStep 3 d t2
  (r0 ++ r1 ++ r2 ++ r3).foldl (fun t r => reportVoice emit r t) t3

/-- R154: an output sample event: the four voices are served in order, the mix goes to AOUT, and the ends follow. -/
def outputSample (emit : Event → State → State) (s : State) : State :=
  let a := stepVoice 0 s
  let b := stepVoice 1 a.state
  let c := stepVoice 2 b.state
  let d := stepVoice 3 c.state
  let sum := a.contribution + b.contribution + c.contribution + d.contribution
  closeVoices emit a b c d { d.state with aout := mix sum d.state.master }

end Sys2Proof.Machine
end

