-- ==== Sys2Proof/Machine/Reactions.lean ====
section
/-! DEFINITION. The reactions: matching, firing, ownership, actions, and the depth of events (R129 to R133). -/

namespace Sys2Proof.Machine

/-- Table 7-4: the event matches the trigger. -/
def matchesEvent (t : Trigger) (e : Event) : Bool :=
  match t, e with
  | .watch n, .watch k _ => n = k
  | .segmentEnd m reasons, .segmentEnd k _ reason _ =>
    m = k && match reasons with
      | none => true
      | some rs => rs.contains reason
  | .voiceEnd v, .voiceEnd k _ => v = k
  | .claimEnd r, .claimEnd k _ => r = k
  | .chainState p entered, .chainState k st =>
    p = k && match entered with
      | none => true
      | some x => x = st
  | _, _ => false

/-- R133: a REACTION notice of entry `n`, on its creator's link, with the counts as they stand. -/
def reactionNotice (n : EntryId) (outcome : ReactionOutcome) (e : Event) (depth : Nat) (s : State) : State :=
  match s.reaction n with
  | some r => s.place r.creator (.reaction n outcome e depth r.fires r.skips s.time)
  | none => s

/-- A firing or refusal whose action was not carried out: the skip count rises, and its notice is sent (R131 to
R133). -/
def skipReaction (n : EntryId) (outcome : ReactionOutcome) (e : Event) (depth : Nat) (s : State) : State :=
  match s.reaction n with
  | some r => reactionNotice n outcome e depth (s.setReaction n (some { r with skips := countUp r.skips }))
  | none => s

/-- R131: the resource whose ownership an action needs. -/
def actionResource : Action → Option Resource
  | .halt m _ => some (.motor m)
  | .segment m _ _ => some (.motor m)
  | .play v _ => some (.voice v)
  | .stop v _ => some (.voice v)
  | .notify _ => none

/-- Events taken one after the other. -/
def takeAll (emit : Event → State → State) (events : List Event) (s : State) : State :=
  events.foldl (fun t e => emit e t) s

/-- R132: an action that goes ahead. `emit` takes the events it causes. -/
def carryOut (emit : Event → State → State) (n : EntryId) (a : Action) (e : Event) (depth : Nat) (s : State) : State :=
  match a with
  | .halt m action =>
    let (s1, events) := stopAction m .halted action s
    takeAll emit events s1
  | .segment m seg replace =>
    match handIn m seg replace s with
    | .ok (s1, events) => takeAll emit events s1
    | .error st => skipReaction n (.refused st) e depth s
  | .play v cue =>
    match s.cue cue with
    | some _ => playVoice emit v cue s
    | none => skipReaction n (.refused .badValue) e depth s
  | .stop v fade => stopVoice emit v fade s
  | .notify code => reactionNotice n (.notify code) e depth s

/-- R131: the action's ownership check, then the action. -/
def actOn (emit : Event → State → State) (n : EntryId) (r : Reaction) (e : Event) (depth : Nat) (s : State) : State :=
  match actionResource r.action with
  | none => carryOut emit n r.action e depth s
  | some res =>
    if s.owner res = some r.creator then carryOut emit n r.action e depth s
    else skipReaction n .notOwner e depth s

/-- R129 steps 1 and 2: the record of a firing. -/
def firedRecord (r : Reaction) : Reaction :=
  { r with fires := countUp r.fires, enabled := r.enabled && r.mode ≠ .once }

/-- R129: whether the entry fires for the event, judged at its own turn. -/
def reactionFires (r : Reaction) (e : Event) : Bool := r.enabled && matchesEvent r.trigger e

/-- R129: the turn of one entry. -/
def fireEntry (emit : Event → State → State) (depth : Nat) (e : Event) (s : State) (n : EntryId) : State :=
  match s.reaction n with
  | none => s
  | some r => if reactionFires r e then actOn emit n r e depth (s.setReaction n (some (firedRecord r))) else s

/-- R130: the turn of one entry for an event of depth 4. -/
def tooDeepEntry (depth : Nat) (e : Event) (s : State) (n : EntryId) : State :=
  match s.reaction n with
  | none => s
  | some r => if reactionFires r e then skipReaction n .tooDeep e depth s else s

/-- R129, R130: an event taken with `levels` more depths that fire reactions; its depth is 4 − levels. The events
that an action causes are taken within the firing, one depth further. -/
def takeEvent : Nat → Event → State → State
  | 0, e, s => allEntries.foldl (tooDeepEntry 4 e) s
  | k + 1, e, s => allEntries.foldl (fireEntry (takeEvent k) (3 - k) e) s

/-- R130: an event handed by a block, of depth 0. -/
def react (e : Event) (s : State) : State := takeEvent 4 e s

/-- Events of depth 0, one after the other (R129). -/
def reactAll (events : List Event) (s : State) : State := takeAll react events s

/-- An operation's state with its events taken. -/
def afterEvents (x : State × List Event) : State := reactAll x.2 x.1

end Sys2Proof.Machine
end

