-- ==== Sys2Proof/Machine/Watches.lean ====
section
/-! DEFINITION. Watches: evaluation on a fresh sample, the loss of a channel, firing and its report (R123 to R126),
and the requests on watches and reactions (R121, R122, R127, R128). -/

namespace Sys2Proof.Machine

/-! ### Evaluation (R123, R124) -/

/-- Table 7-2: an ARMED watch fires on the value. -/
def firingTest (t : WatchTest) (v : Int) : Bool :=
  match t with
  | .above threshold => threshold < v
  | .below threshold => v < threshold
  | .outside lo hi => v < lo || hi < v
  | .inside lo hi => lo ≤ v && v ≤ hi
  | .change _ => false

/-- Table 7-2: a TRIPPED watch re-arms on the value. -/
def rearmTest (t : WatchTest) (h v : Int) : Bool :=
  match t with
  | .above threshold => v ≤ threshold - h
  | .below threshold => threshold + h ≤ v
  | .outside lo hi => lo + h ≤ v && v ≤ hi - h
  | .inside lo hi => v < lo - h || hi + h < v
  | .change _ => false

/-- R126: the record of a firing. -/
def firedWatch (w : Watch) : Watch := { w with fires := countUp w.fires }

/-- R124: a CHANGE watch against a sample, and whether it fires. -/
def evaluateChange (w : Watch) (delta v : Int) : Watch × Bool :=
  match w.reference with
  | none => ({ w with reference := some v }, false)
  | some r =>
    if delta ≤ ((v - r).natAbs : Int) then ({ firedWatch w with reference := some v }, true) else (w, false)

/-- R123: a level watch against a sample, and whether it fires. -/
def evaluateLevel (w : Watch) (v : Int) : Watch × Bool :=
  match w.state with
  | .armed => if firingTest w.test v then ({ firedWatch w with state := .tripped }, true) else (w, false)
  | .tripped => if rearmTest w.test w.hysteresis v then ({ w with state := .armed }, false) else (w, false)

/-- R123, R124: a watch against a sample's value, and whether it fires. -/
def evaluateWatch (w : Watch) (v : Int) : Watch × Bool :=
  match w.test with
  | .change delta => evaluateChange w delta v
  | .above _ => evaluateLevel w v
  | .below _ => evaluateLevel w v
  | .outside _ _ => evaluateLevel w v
  | .inside _ _ => evaluateLevel w v

/-- R125: a watch at a loss of its channel, and whether it fires. -/
def loseWatch (w : Watch) : Watch × Bool :=
  if w.fireOnLoss then
    match w.test with
    | .change _ => ({ firedWatch w with reference := none }, true)
    | .above _ => ({ firedWatch w with state := .tripped }, true)
    | .below _ => ({ firedWatch w with state := .tripped }, true)
    | .outside _ _ => ({ firedWatch w with state := .tripped }, true)
    | .inside _ _ => ({ firedWatch w with state := .tripped }, true)
  else (w, false)

/-- R123: one entry against a fresh sample of a channel; the entries that fire are gathered in order. -/
def sampleEntry (ch : ChannelId) (acc : State × List EntryId) (n : EntryId) : State × List EntryId :=
  match acc.1.watch n with
  | none => acc
  | some w =>
    let c := acc.1.channel ch
    if w.channel = ch ∧ w.index.val < c.valueCount then
      let (w1, fired) := evaluateWatch w c.values[w.index]
      (acc.1.setWatch n (some w1), if fired then acc.2 ++ [n] else acc.2)
    else acc

/-- R125: one entry at the loss of a channel. -/
def lossEntry (ch : ChannelId) (acc : State × List EntryId) (n : EntryId) : State × List EntryId :=
  match acc.1.watch n with
  | none => acc
  | some w =>
    if w.channel = ch then
      let (w1, fired) := loseWatch w
      (acc.1.setWatch n (some w1), if fired then acc.2 ++ [n] else acc.2)
    else acc

/-- R126: a WATCH_FIRED notice, on the creator's link. -/
def watchNotice (cause : WatchCause) (s : State) (n : EntryId) : State :=
  match s.watch n with
  | none => s
  | some w =>
    let c := s.channel w.channel
    s.place w.creator
      (.watchFired n w.channel w.index w.test cause c.values[w.index] w.state w.fires c.stamp s.time)

/-- R126: every watch evaluated, then the notices in entry order, then the WATCH events in the same order. -/
def reportFirings (cause : WatchCause) (x : State × List EntryId) : State :=
  let s1 := x.2.foldl (watchNotice cause) x.1
  x.2.foldl (fun t n => react (.watch n cause) t) s1

/-- R123, R126: the watches at a fresh sample of a channel. -/
def watchSample (ch : ChannelId) (s : State) : State :=
  reportFirings .value (allEntries.foldl (sampleEntry ch) (s, []))

/-- R125, R126: the watches at the loss of a channel. -/
def watchLoss (ch : ChannelId) (cause : WatchCause) (s : State) : State :=
  reportFirings cause (allEntries.foldl (lossEntry ch) (s, []))

/-! ### Requests (R121, R122, R127, R128) -/

/-- R121: the new watch in its entry, when its place is free to take. -/
def placeWatch (src : Source) (f : WatchFields) (ch : ChannelId) (idx : Fin 8) (k : WatchKind) (s : State) :
    State × Reply :=
  match placeEntry allEntries (fun n => (s.watch n).map Watch.creator) src f.entry with
  | .refused st => (s, Reply.refuse st)
  | .at n =>
    match checkWatchTest k f with
    | none => (s, Reply.refuse .badValue)
    | some (test, h, clamped) =>
      (s.setWatch n
          (some
            { channel := ch, index := idx, test := test, hysteresis := h, fireOnLoss := f.fireOnLoss,
              state := .armed, reference := none, creator := src, fires := 0 }),
        Reply.ok clamped (.entry n.val))

/-- R121: WATCH_SET. -/
def watchSet (src : Source) (f : WatchFields) (s : State) : State × Reply :=
  if entryOk 16 f.entry then
    match index 16 f.channel, index 8 f.index, Coded.get? f.comparison with
    | some ch, some idx, some k =>
      if (s.channel ch).state = .unmapped then (s, Reply.refuse .noSource)
      else if (s.channel ch).valueCount ≤ idx.val then (s, Reply.refuse .badValue)
      else placeWatch src f ch idx k s
    | _, _, _ => (s, Reply.refuse .badValue)
  else (s, Reply.refuse .badValue)

/-- R167: a TABLET sender may not remove a record created by PROGRAM. -/
def mayRemove (src creator : Source) : Bool := src = .program || creator = .tablet

/-- R122: WATCH_CLEAR. -/
def watchClear (src : Source) (entry : Nat) (s : State) : State × Reply :=
  match index 16 entry with
  | none => (s, Reply.refuse .badValue)
  | some n =>
    match s.watch n with
    | none => (s, Reply.ok false .empty)
    | some w =>
      if mayRemove src w.creator then (s.setWatch n none, Reply.ok false (.fires w.fires))
      else (s, Reply.refuse .notPermitted)

/-- R127: REACT_SET. -/
def reactSet (src : Source) (f : ReactFields) (s : State) : State × Reply :=
  match checkTrigger f.trigger, checkAction f.action, Coded.get? f.mode with
  | some trigger, some (action, clamped), some mode =>
    match placeEntry allEntries (fun n => (s.reaction n).map Reaction.creator) src f.entry with
    | .refused st => (s, Reply.refuse st)
    | .at n =>
      (s.setReaction n
          (some
            { trigger := trigger, action := action, mode := mode, enabled := f.enabled, creator := src, fires := 0,
              skips := 0 }),
        Reply.ok clamped (.entry n.val))
  | _, _, _ => (s, Reply.refuse .badValue)

/-- R128: REACT_CLEAR. -/
def reactClear (src : Source) (entry : Nat) (s : State) : State × Reply :=
  match index 16 entry with
  | none => (s, Reply.refuse .badValue)
  | some n =>
    match s.reaction n with
    | none => (s, Reply.ok false .empty)
    | some r =>
      if mayRemove src r.creator then (s.setReaction n none, Reply.ok false (.counts r.fires r.skips))
      else (s, Reply.refuse .notPermitted)

/-- R128: REACT_READ; one that names neither kind of entry holds a value outside its enumeration (Table 0-5). -/
def reactRead (target : ReadTarget) (s : State) : State × Reply :=
  match target with
  | .reaction n =>
    match index 16 n with
    | none => (s, Reply.refuse .badValue)
    | some n => (s, Reply.ok false (.reaction (s.reaction n)))
  | .watch n =>
    match index 16 n with
    | none => (s, Reply.refuse .badValue)
    | some n => (s, Reply.ok false (.watch (s.watch n)))
  | .outside => (s, Reply.refuse .badValue)

/-- R121. -/
def execWatchSet (src : Source) (tag : Byte) (f : WatchFields) (s : State) : Out :=
  .next (serve .watchSet src tag (watchSet src f) s)

/-- R122. -/
def execWatchClear (src : Source) (tag : Byte) (entry : Nat) (s : State) : Out :=
  .next (serve .watchClear src tag (watchClear src entry) s)

/-- R127. -/
def execReactSet (src : Source) (tag : Byte) (f : ReactFields) (s : State) : Out :=
  .next (serve .reactSet src tag (reactSet src f) s)

/-- R128. -/
def execReactClear (src : Source) (tag : Byte) (entry : Nat) (s : State) : Out :=
  .next (serve .reactClear src tag (reactClear src entry) s)

/-- R128. -/
def execReactRead (src : Source) (tag : Byte) (target : ReadTarget) (s : State) : Out :=
  .next (serve .reactRead src tag (reactRead target) s)

end Sys2Proof.Machine
end

