-- ==== Sys2Proof/Machine/Channels.lean ====
section
/-! DEFINITION. The channel map: mapping, scaling, freshness, channel states at module reports, failover and the
copy engine (Chapter 6). -/

namespace Sys2Proof.Machine

/-! ### Modules of a channel (R105) -/

def Channel.servingModule (c : Channel) : Option ModuleName :=
  match c.serving with
  | .primary => c.primary
  | .spare => c.spare

def Channel.otherModule (c : Channel) : Option ModuleName :=
  match c.serving with
  | .primary => c.spare
  | .spare => c.primary

def recordOf (s : State) (n : Option ModuleName) : Option ModuleRecord :=
  match n with
  | some n => s.module n.port n.pos
  | none => none

/-- R105: a module backs a channel that names it and is not UNMAPPED. -/
def backs (c : Channel) (n : ModuleName) : Bool :=
  c.state ≠ .unmapped && (c.primary = some n || c.spare = some n)

/-- R106: the channel that a module backs, if any. -/
def backedChannel (s : State) (n : ModuleName) : Option ChannelId :=
  allChannels.find? fun c => backs (s.channel c) n

/-! ### Reports and losses (R113, R118) -/

/-- R118: a CHANNEL_STATE notice, with the record as it stands after the change. -/
def channelNotice (ch : ChannelId) (left : ChannelState) (cause : ChannelCause) (s : State) : State :=
  let c := s.channel ch
  s.placeBoth (.channelState ch left c.state cause c.serving (Channel.servingModule c) c.poor s.time)

/-- R34, R113, R107: the loss of a channel handed to the motion controller, one motor at a time, and to the
watches (log 10). -/
def channelLoss (ch : ChannelId) (cause : WatchCause) (s : State) : State :=
  watchLoss ch cause (allMotors.foldl (fun t m => afterEvents (lossAtMotor ch m t)) s)

/-- R110: fresh cleared, and the stale deadline stopped. -/
def staleChannel (c : Channel) : Channel := { c with fresh := false, staleAt := none }

/-- R113: a channel's fields on entry to LOST. -/
def lostChannel (c : Channel) : Channel := { staleChannel c with state := .lost, poor := false }

/-- R113, R118: entry to LOST. -/
def enterLost (ch : ChannelId) (cause : ChannelCause) (s : State) : State :=
  let left := (s.channel ch).state
  channelLoss ch .loss (channelNotice ch left cause (s.modChannel ch lostChannel))

/-- A change of state with its notice (R118). -/
def changeChannel (ch : ChannelId) (cause : ChannelCause) (f : Channel → Channel) (s : State) : State :=
  channelNotice ch (s.channel ch).state cause (s.modChannel ch f)

/-! ### The copy engine (R114 to R117) -/

/-- R115: the copy set, when the serving module's record holds all four pages. -/
def copySet (ch : ChannelId) (r : Option ModuleRecord) : Option Copy :=
  match r with
  | some r =>
    match r.format, r.range, r.rate, r.start with
    | some a, some b, some c, some d => some ⟨ch, a, b, c, d, 0⟩
    | _, _, _, _ => none
  | none => none

/-- R115: the next write of a copy, in the order FORMAT, RANGE, RATE, START. -/
def nextWrite (c : Copy) : Option (Page × PageBytes) :=
  match c.written with
  | 0 => some (.format, c.format)
  | 1 => some (.range, c.range)
  | 2 => some (.rate, c.rate)
  | 3 => some (.start, c.start)
  | _ => none

/-- R115, R90: the copy's next write handed to the chain of its target; `none` when it is refused. -/
def handNext (c : Copy) (s : State) : Option State :=
  match Channel.otherModule (s.channel c.channel), nextWrite c with
  | some target, some (page, bytes) => handCopyWrite target.port ⟨target.pos, page, some bytes, 0, .copy⟩ s
  | _, _ => none

/-- R114: the lowest-numbered channel in WAITING. -/
def lowestWaiting (s : State) : Option ChannelId := allChannels.find? fun c => (s.channel c).state = .waiting

/-- R117: the engine becomes free, and the writes of its copy are left to themselves. -/
def freeEngine (s : State) : State := orphanCopies { s with copy := none }

/-- R115: a WAITING channel taken: COPYING with its first write handed over, or LOST when no copy can be made or
the write is refused. -/
def startCopy (ch : ChannelId) (s : State) : State :=
  match copySet ch (recordOf s (Channel.servingModule (s.channel ch))) with
  | none => enterLost ch .copyFailed s
  | some c =>
    let s1 :=
      changeChannel ch .copyStarted (fun x => { staleChannel x with state := .copying }) { s with copy := some c }
    match handNext c s1 with
    | some s2 => s2
    | none => enterLost ch .copyFailed (freeEngine s1)

/-- R114, R115: a free engine takes the lowest-numbered waiting channel, and the next while it stays free. Each turn
takes one channel out of WAITING, so 16 turns are enough. -/
def runEngine : Nat → State → State
  | 0, s => s
  | n + 1, s =>
    if s.copy.isSome then s
    else
      match lowestWaiting s with
      | none => s
      | some ch => runEngine n (startCopy ch s)

/-- R117: the running copy fails. -/
def failCopy (ch : ChannelId) (cause : ChannelCause) (s : State) : State :=
  runEngine 16 (enterLost ch cause (freeEngine s))

/-- R115, R117: a write of the running copy has ended, done or failed. -/
def copyWriteEnded (done : Bool) (s : State) : State :=
  match s.copy with
  | none => s
  | some c =>
    if done then
      let c1 := { c with written := c.written + 1 }
      let s1 := { s with copy := some c1 }
      if c1.written < 4 then
        match handNext c1 s1 with
        | some s2 => s2
        | none => failCopy c.channel .copyFailed s1
      else s1
    else failCopy c.channel .copyFailed s

/-- R116: the copy completes: the serving slot switches to the target. -/
def completeCopy (ch : ChannelId) (s : State) : State :=
  let old := recordOf s (Channel.servingModule (s.channel ch))
  let s1 :=
    changeChannel ch .copyDone
      (fun c =>
        { staleChannel c with
          state := if healthyRecord c old then .redundant else .exposed
          serving := match c.serving with
            | .primary => .spare
            | .spare => .primary })
      s
  runEngine 16 { s1 with copy := none }

/-! ### Channels at a module report (R112) -/

/-- R112: S falls: to WAITING when O is healthy, else to LOST. -/
def servingFalls (ch : ChannelId) (s : State) : State :=
  if healthyRecord (s.channel ch) (recordOf s (Channel.otherModule (s.channel ch))) then
    runEngine 16 (changeChannel ch .servingFailed (fun c => { staleChannel c with state := .waiting }) s)
  else enterLost ch .servingLost s

/-- R112, SINGLE: lost, or POOR as the primary's FAILING flag. -/
def judgeSingle (ch : ChannelId) (s : State) : State :=
  let c := s.channel ch
  match recordOf s (Channel.servingModule c) with
  | none => enterLost ch .servingLost s
  | some r =>
    if !usableRecord c (some r) then enterLost ch .servingLost s
    else if r.failing && !c.poor then changeChannel ch .poorSet (fun x => { x with poor := true }) s
    else if !r.failing && c.poor then changeChannel ch .poorCleared (fun x => { x with poor := false }) s
    else s

/-- R112, R113: a LOST channel at a report: the primary serves if it is healthy, else the spare. -/
def recoverChannel (ch : ChannelId) (s : State) : State :=
  let c := s.channel ch
  let first := healthyRecord c (recordOf s c.primary)
  let second := healthyRecord c (recordOf s c.spare)
  if first || second then
    changeChannel ch .recovered
      (fun x =>
        { x with
          serving := if first then .primary else .spare
          state := if c.spare.isNone then .single else if first && second then .redundant else .exposed })
      s
  else s

/-- R110: fresh clears once the serving module is not READY on an ACTIVE or DEGRADED chain. -/
def judgeFresh (ch : ChannelId) (s : State) : State :=
  match Channel.servingModule (s.channel ch) with
  | none => s
  | some n =>
    match s.module n.port n.pos with
    | some r =>
      if r.state = .ready && (s.chain n.port).live then s else s.modChannel ch staleChannel
    | none => s.modChannel ch staleChannel

/-- R112, Table 6-5: one mapped channel judged against the modules as the report leaves them. -/
def judgeChannel (ch : ChannelId) (s0 : State) : State :=
  let s := judgeFresh ch s0
  let c := s.channel ch
  let serving := recordOf s (Channel.servingModule c)
  let other := recordOf s (Channel.otherModule c)
  match c.state with
  | .unmapped => s
  | .single => judgeSingle ch s
  | .redundant =>
    if fallenRecord c serving then servingFalls ch s
    else if healthyRecord c other then s
    else changeChannel ch .otherUnhealthy (fun x => { x with state := .exposed }) s
  | .exposed =>
    if fallenRecord c serving then servingFalls ch s
    else if healthyRecord c other then changeChannel ch .otherHealthy (fun x => { x with state := .redundant }) s
    else s
  | .waiting => if fallenRecord c other then enterLost ch .targetLost s else s
  | .copying =>
    if fallenRecord c other then failCopy ch .targetLost s
    else
      match s.copy with
      | some k => if healthyRecord c other && k.written = 4 then completeCopy ch s else s
      | none => s
  | .lost => recoverChannel ch s

/-- R112: a channel names a reported module. -/
def namesReported (c : Channel) (p : PortId) (ks : List ModulePos) : Bool :=
  c.state ≠ .unmapped && ks.any fun k => c.primary = some ⟨p, k⟩ || c.spare = some ⟨p, k⟩

/-- R104, R112: a module report of port `p`, taken whole, in channel number order. An engine that the judging of a
channel frees takes the next waiting channel at that turn (R116, "at once"), so its COPYING can come before the changes
of channels still to be judged (log 41). -/
def moduleReport (p : PortId) (ks : List ModulePos) (s : State) : State :=
  if ks = [] then s
  else allChannels.foldl (fun t ch => if namesReported (t.channel ch) p ks then judgeChannel ch t else t) s

/-! ### Samples (R108, R109, R110) -/

/-- R108: a raw value scaled. -/
def scaled (c : Channel) (raw : Half) : Int :=
  clampInt (-1000000000) 1000000000 (divZero (raw.toInt * c.num) c.den + c.offset)

/-- R108: the values of a sample, up to the channel's value count. -/
def scaleValues (c : Channel) (raw : List Half) : Vector Int 8 :=
  let at' (k : Fin 8) : Int := if k.val < c.valueCount then scaled c (raw.getD k.val 0) else c.values[k]
  #v[at' 0, at' 1, at' 2, at' 3, at' 4, at' 5, at' 6, at' 7]

/-- R109: the channel takes a sample; `interval` is its poll interval in ms. -/
def takeSample (c : Channel) (x : Sample) (now : Word) (interval : Nat) : Channel :=
  { c with
    values := scaleValues c x.values, stamp := x.stamp, fresh := true,
    staleAt := some (now + BitVec.ofNat 32 (3 * interval)) }

/-- R109: the channel takes samples of the module: it is SINGLE, REDUNDANT or EXPOSED, the module serves it, and is
READY. -/
def takesSample (c : Channel) (n : ModuleName) (r : ModuleRecord) : Bool :=
  (c.state = .single || c.state = .redundant || c.state = .exposed) && Channel.servingModule c = some n &&
    r.state = .ready

/-- R33, R109: a fresh sample delivered to the motion controller, one motor at a time, and to the watches
(log 10). -/
def deliverSample (ch : ChannelId) (s : State) : State :=
  watchSample ch (allMotors.foldl (fun t m => afterEvents (sampleAtMotor ch m t)) s)

/-- R109: a sample of a module handed to the channel map. -/
def channelSample (n : ModuleName) (r : ModuleRecord) (x : Sample) (s : State) : State :=
  match backedChannel s n with
  | none => s
  | some ch =>
    let c := s.channel ch
    if takesSample c n r then
      deliverSample ch (s.setChannel ch (takeSample c x s.time ((s.chain n.port).syncPeriod * r.divider)))
    else s

/-! ### Requests (R106, R107, R111) -/

/-- A module named by a request's numbers. -/
def moduleName (port pos : Nat) : Option ModuleName :=
  match index 4 port, position pos with
  | some p, some k => some ⟨p, k⟩
  | _, _ => none

/-- R106: the spare of a MAP_SET: absent, a module, or numbers out of range. -/
def spareName (spare : Option (Nat × Nat)) : Option (Option ModuleName) :=
  match spare with
  | none => some none
  | some (port, pos) => (moduleName port pos).map some

/-- R106 step 6: the module backs a channel other than `ch`. -/
def backsAnother (s : State) (ch : ChannelId) (n : ModuleName) : Bool :=
  allChannels.any fun k => k ≠ ch && backs (s.channel k) n

/-- R106: the new record of a mapped channel; its state and serving slot come from the modules as they stand. R106 gives
a channel that it sets LOST no serving slot: the model stores and replies PRIMARY (log 36). -/
def mappedChannel (f : MapFields) (primary : ModuleName) (spare : Option ModuleName) (a : ModuleRecord)
    (b : Option ModuleRecord) : Channel :=
  let c : Channel :=
    { Channel.unmapped with
      primary := some primary, spare := spare, kind := a.kind,
      valueCount := match b with
        | some b => min a.valueCount b.valueCount
        | none => a.valueCount
      num := f.num, den := clampInt 1 32767 f.den, offset := clampInt (-1000000) 1000000 f.offset }
  match b with
  | none =>
    if usableRecord c (some a) then { c with state := .single, poor := a.failing } else { c with state := .lost }
  | some b =>
    if !fallenRecord c (some a) then
      { c with state := if healthyRecord c (some b) then .redundant else .exposed }
    else if !fallenRecord c (some b) then
      { c with serving := .spare, state := if healthyRecord c (some a) then .redundant else .exposed }
    else { c with state := .lost }


/-- R106: the first of steps 3 to 6 that refuses the mapping, if any. -/
def mapRefusal (s : State) (ch : ChannelId) (primary : ModuleName) (spare : Option ModuleName)
    (a : Option ModuleRecord) (b : Option ModuleRecord) : Option Status :=
  if a.isNone || (spare.isSome && b.isNone) then some .badValue
  else if spare = some primary then some .badValue
  else if spare.isSome && b.map ModuleRecord.kind ≠ a.map ModuleRecord.kind then some .badValue
  else if backsAnother s ch primary || (spare.map (backsAnother s ch)).getD false then some .inUse
  else none

/-- R106: an accepted mapping: its notice, and the loss when it sets LOST. -/
def mapChannel (ch : ChannelId) (c : Channel) (s : State) : State :=
  let s1 := channelNotice ch (s.channel ch).state .mapped (s.setChannel ch c)
  if c.state = .lost then channelLoss ch .loss s1 else s1

/-- R106: MAP_SET. -/
def mapSet (f : MapFields) (s : State) : State × Reply :=
  match index 16 f.channel, moduleName f.primaryPort f.primaryPos, spareName f.spare with
  | some ch, some primary, some spare =>
    if f.den = 0 then (s, Reply.refuse .badValue)
    else if (s.channel ch).state = .waiting ∨ (s.channel ch).state = .copying then (s, Reply.refuse .busy)
    else
      let a := recordOf s (some primary)
      let b := recordOf s spare
      match mapRefusal s ch primary spare a b, a with
      | some st, _ => (s, Reply.refuse st)
      | none, none => (s, Reply.refuse .badValue)
      | none, some a =>
        let c := mappedChannel f primary spare a b
        (mapChannel ch c s,
          Reply.ok (outOfRange 1 32767 f.den || outOfRange (-1000000) 1000000 f.offset)
            (.mapped c.state c.serving c.valueCount))
  | _, _, _ => (s, Reply.refuse .badValue)

/-- R107: a mapped channel cleared. -/
def clearChannel (ch : ChannelId) (s : State) : State :=
  channelLoss ch .cleared (channelNotice ch (s.channel ch).state .cleared (s.setChannel ch Channel.unmapped))

/-- R107: MAP_CLEAR. Of an UNMAPPED channel it changes nothing, and still sends its notice (R118, log 37). -/
def mapClear (channel : Nat) (s : State) : State × Reply :=
  match index 16 channel with
  | none => (s, Reply.refuse .badValue)
  | some ch =>
    match (s.channel ch).state with
    | .waiting => (s, Reply.refuse .busy)
    | .copying => (s, Reply.refuse .busy)
    | .unmapped => (channelNotice ch .unmapped .cleared s, Reply.ok false .empty)
    | .single => (clearChannel ch s, Reply.ok false .empty)
    | .redundant => (clearChannel ch s, Reply.ok false .empty)
    | .exposed => (clearChannel ch s, Reply.ok false .empty)
    | .lost => (clearChannel ch s, Reply.ok false .empty)

/-- R111: the age of a channel's values. -/
def channelAge (now : Word) (c : Channel) : Nat := if c.stamp = 0 then 0 else (now - c.stamp).toNat

/-- R111: the content of CHANNEL_READ's reply. -/
def channelReport (s : State) (ch : ChannelId) : ChannelReport :=
  let c := s.channel ch
  { channel := c, age := channelAge s.time c
    ahead :=
      if c.state = .waiting then
        some ((allChannels.filter fun k => k < ch && (s.channel k).state = .waiting).length)
      else none
    progress :=
      if c.state = .copying then s.copy.map fun k => (k.written, k.written = 4) else none }

/-- R111: CHANNEL_READ. -/
def channelRead (channel : Nat) (s : State) : State × Reply :=
  match index 16 channel with
  | none => (s, Reply.refuse .badValue)
  | some ch => (s, Reply.ok false (.channel (channelReport s ch)))

/-- R106. -/
def execMapSet (src : Source) (tag : Byte) (f : MapFields) (s : State) : Out :=
  .next (serve .mapSet src tag (mapSet f) s)

/-- R107. -/
def execMapClear (src : Source) (tag : Byte) (channel : Nat) (s : State) : Out :=
  .next (serve .mapClear src tag (mapClear channel) s)

/-- R111. -/
def execChannelRead (src : Source) (tag : Byte) (channel : Nat) (s : State) : Out :=
  .next (serve .channelRead src tag (channelRead channel) s)

/-- R110: the stale deadline passes: fresh clears, when the deadline runs (log 2). -/
def execStaleDeadline (ch : ChannelId) (s : State) : Out :=
  .next (if (s.channel ch).staleAt.isSome then s.modChannel ch staleChannel else s)

end Sys2Proof.Machine
end

