-- ==== Sys2Proof/Machine/BringUp.lean ====
section
/-! DEFINITION. Changes of modules and of chain states with their reports, and the entries to bring-up, OFF, FAULT
and EMPTY (R73, R74, R81 to R83, R92, R96, R99, R104). -/

namespace Sys2Proof.Machine

/-! ### Module changes (R99, R104) -/

/-- R104: a MODULE_STATE notice, with the record as it stands after the change. -/
def moduleNotice (p : PortId) (k : ModulePos) (left : ModuleState) (cause : ModuleCause) (s : State) : State :=
  match s.module p k with
  | none => s
  | some r =>
    s.placeBoth (.moduleState p k r.kind r.model left r.state cause r.failing r.bucket r.misses s.time)

/-- R110: the channel that the module serves is no longer fresh. -/
def staleServed (p : PortId) (k : ModulePos) (s : State) : State :=
  allChannels.foldl
    (fun t ch =>
      if Channel.servingModule (t.channel ch) = some ⟨p, k⟩ then t.modChannel ch staleChannel else t) s

/-- A module changed by `f`, with its notice; leaving READY makes the channel it serves stale (R99, R104, R110). -/
def changeModule (p : PortId) (k : ModulePos) (cause : ModuleCause) (f : ModuleRecord → ModuleRecord) (s : State) :
    State :=
  match s.module p k with
  | none => s
  | some r =>
    let s1 := s.setModule p k (f r)
    let s2 := if r.state = .ready ∧ (f r).state ≠ .ready then staleServed p k s1 else s1
    moduleNotice p k r.state cause s2

/-- R99: the record of a module that becomes ABSENT: its settle timer stops. -/
def absentRecord (r : ModuleRecord) : ModuleRecord := { r with state := .absent, settleLeft := 0 }

/-- R99: a module made ABSENT, and whether that changed it. -/
def absentModule (p : PortId) (k : ModulePos) (cause : ModuleCause) (s : State) : State × List ModulePos :=
  match s.module p k with
  | none => (s, [])
  | some r => if r.state = .absent then (s, []) else (changeModule p k cause absentRecord s, [k])

/-- R99: the settle timer has expired. -/
def readyRecord (r : ModuleRecord) : ModuleRecord := { r with state := .ready, settleLeft := 0 }

/-- R99: the settle timer starts at the settle time. -/
def settlingRecord (r : ModuleRecord) : ModuleRecord := { r with state := .settling, settleLeft := r.settleTime }

/-- R99: a module enters SETTLING, and READY at the same moment when its settle time is 0. -/
def enterSettling (p : PortId) (k : ModulePos) (cause : ModuleCause) (s : State) : State :=
  let s1 := changeModule p k cause settlingRecord s
  match s1.module p k with
  | some r => if r.settleTime = 0 then changeModule p k .settled readyRecord s1 else s1
  | none => s1

/-! ### Chain state changes (R96) -/

/-- R73, R96: a CHAIN_STATE notice, with the chain as it stands after the change. -/
def chainNotice (p : PortId) (left : ChainState) (cause : ChainCause) (s : State) : State :=
  let c := s.chain p
  s.placeBoth
    (.chainState p left c.state cause c.modules.length c.overlong c.failedA c.failedB c.selected c.sticky s.time)

/-- R96: a change of a chain's state: the notices, then the CHAIN_STATE event (log 11). -/
def changeChain (p : PortId) (st : ChainState) (cause : ChainCause) (s : State) : State :=
  let left := (s.chain p).state
  react (.chainState p st) (chainNotice p left cause (s.modChain p fun c => { c with state := st }))

/-! ### Entry to bring-up and to OFF (R74, R92) -/

/-- R74, R84, R92: the chain's running work stops: its timers, its sync, its round, and what bring-up had collected.
The transaction in flight becomes `call`. -/
def Chain.halted (call : Option Call) (c : Chain) : Chain :=
  { c with
    inFlight := call, syncPending := false, round := [], trainTries := 0, found := [], callTries := 0,
    configTodo := [], restLeft := none, trainLeft := none, probeLeft := none, retryLeft := none, syncLeft := none }

/-- The positions at which a chain holds a record. -/
def heldPositions (c : Chain) : List ModulePos := allPositions.filter fun k => k.val < c.modules.length

/-- R74, R92: every module record of the chain becomes ABSENT, in position order. -/
def absentAll (p : PortId) (cause : ModuleCause) (s : State) : State × List ModulePos :=
  (heldPositions (s.chain p)).foldl
    (fun acc k =>
      let (t, changed) := absentModule p k cause acc.1
      (t, acc.2 ++ changed)) (s, [])

/-- R74: entry to bring-up, with RESET_ALL going out. `extra` are modules that the same event changed before. -/
def enterBringUp (p : PortId) (cause : ChainCause) (extra : List ModulePos) (s : State) : State :=
  let (s1, changed) := absentAll p .bringUp (s.modChain p (Chain.halted (some .resetAll)))
  moduleReport p (extra ++ changed) (changeChain p .reset cause s1)

/-- R92: entry to OFF. -/
def enterOff (p : PortId) (s : State) : State :=
  let (s1, changed) := absentAll p .off (s.modChain p (Chain.halted none))
  moduleReport p changed (changeChain p .off .request s1)

/-- R92: the outcome of an operation that a restart finds queued: ABORTED, or a failed copy write. -/
def abortOp (s : State) (op : PageOp) : State :=
  match op.origin with
  | .request src slot => s.post src slot (Reply.refuse .aborted)
  | .copy => copyWriteEnded false s
  | .orphan => s

/-- R83, R92: the page-operation queue is emptied, with the write held aside. A copy that fails here frees the engine,
which may hand the next copy's write to this same chain: that write is returned failed as well. Each turn takes one
channel out of WAITING, so 17 turns are enough. -/
def abortQueue (p : PortId) : Nat → State → State
  | 0, s => s
  | n + 1, s =>
    let c := s.chain p
    if c.queue = [] ∧ c.aside = [] then s
    else abortQueue p n ((c.queue ++ c.aside).foldl abortOp (s.setChain p { c with queue := [], aside := [] }))

/-- R92 steps 1 and 2: the transaction in flight is abandoned, and the queue is emptied. -/
def abortWork (p : PortId) (s : State) : State := abortQueue p 17 (s.modChain p fun c => { c with inFlight := none })

/-- R83: a restart. -/
def restartChain (p : PortId) (cause : ChainCause) (extra : List ModulePos) (s : State) : State :=
  enterBringUp p cause extra (abortWork p s)

/-! ### FAULT and EMPTY (R76, R77, R81, R82) -/

/-- R82: the fault count, and the retry timer while retries are left. -/
def Chain.faulted (c : Chain) : Chain :=
  let n := min 4 (c.faultCount + 1)
  { Chain.halted none c with faultCount := n, retryLeft := if n ≤ 3 then some 500 else none }

/-- R82: entry to FAULT. -/
def enterFault (p : PortId) (cause : ChainCause) (s : State) : State :=
  changeChain p .fault cause (s.modChain p Chain.faulted)

/-- R81: entry to EMPTY, with the first probe 200 ms ahead. -/
def enterEmpty (p : PortId) (cause : ChainCause) (s : State) : State :=
  changeChain p .empty cause (s.modChain p fun c => { Chain.halted none c with probeLeft := some 200 })

/-! ### Absence and the wires of a live chain (R73, R83) -/

/-- R83: what follows when modules `ks` of a live chain have changed, one of them to ABSENT when `gone`: DEGRADED, a
restart once every module is ABSENT, and the module report (log 12). -/
def afterAbsence (p : PortId) (gone : Bool) (ks : List ModulePos) (s : State) : State :=
  if gone then
    let s1 := if (s.chain p).state = .active then changeChain p .degraded .moduleAbsent s else s
    if (s1.chain p).modules.all fun r => r.state = .absent then restartChain p .allAbsent ks s1
    else moduleReport p ks s1
  else moduleReport p ks s

def otherWire : Wire → Wire
  | .retA => .retB
  | .retB => .retA

def Chain.failedWire (c : Chain) : Wire → Bool
  | .retA => c.failedA
  | .retB => c.failedB

/-- R73: the selected wire marked failed, and the other selected. -/
def Chain.swapped (c : Chain) : Chain :=
  match c.selected with
  | .retA => { c with failedA := true, selected := .retB }
  | .retB => { c with failedB := true, selected := .retA }

/-- R73, R83: a wire swap; an ACTIVE chain becomes DEGRADED. -/
def swapWire (p : PortId) (s : State) : State :=
  let s1 := s.modChain p Chain.swapped
  if (s1.chain p).state = .active then changeChain p .degraded .wireFailed s1 else s1

end Sys2Proof.Machine
end

