-- ==== Sys2Proof/Machine/Chains.lean ====
section
/-! DEFINITION. The chain controllers: judging answers, wire hand-out, the outcomes of transactions in every chain
state, the chain timers, and the chain requests (Chapter 5, R98 to R104). -/

namespace Sys2Proof.Machine

/-! ### Judging answers (R71, R72) -/

/-- What a usable wire carried since the call: nothing complete, or a complete answer, bad or good. -/
inductive Heard where
  | silent
  | bad
  | good (a : Answer)
deriving DecidableEq, Repr

/-- R71: the answer's content is the one the call asks for, and within range. `valueCount` is that of the module's
record. -/
def contentFits (call : Call) (valueCount : Nat) (a : Answer) : Bool :=
  match call, a with
  | .train, .training => true
  | .rollcall k, .rollcall pos _ _ n settle _ => pos = k.val + 1 && 1 ≤ n && n ≤ 8 && settle ≤ 500
  | .setPage k page _, .pageAck pos n => pos = k.val + 1 && n = pageNumber page
  | .getPage k page, .pageAnswer pos n _ => pos = k.val + 1 && n = pageNumber page
  | .poll k, .sample pos _ values _ => pos = k.val + 1 && values.length = valueCount
  | _, _ => false

/-- R71, R73: what is heard on a wire; a wire marked failed is not listened to. -/
def heardOn (call : Call) (valueCount : Nat) (failed : Bool) (w : WireAnswer) : Heard :=
  if failed then .silent
  else
    match w with
    | .silent => .silent
    | .complete ok a => if ok && contentFits call valueCount a then .good a else .bad

/-- The module that a call is addressed to. -/
def addressed : Call → Option ModulePos
  | .setPage k _ _ => some k
  | .getPage k _ => some k
  | .poll k => some k
  | .resetAll => none
  | .train => none
  | .rollcall _ => none
  | .sync _ => none

/-- The value count a sample answer is held to: that of the addressed module's record. -/
def callValueCount (c : Chain) (call : Call) : Nat :=
  match (addressed call).bind fun k => c.modules[k.val]? with
  | some r => r.valueCount
  | none => 0

/-- What both return wires have carried, seen from the selected wire. -/
structure Ears where
  retA : Heard
  retB : Heard
deriving DecidableEq, Repr

def hear (c : Chain) (call : Call) (a b : WireAnswer) : Ears :=
  { retA := heardOn call (callValueCount c call) c.failedA a
    retB := heardOn call (callValueCount c call) c.failedB b }

def Ears.on (e : Ears) : Wire → Heard
  | .retA => e.retA
  | .retB => e.retB

def Heard.isGood : Heard → Bool
  | .good _ => true
  | .bad => false
  | .silent => false

def Heard.isComplete : Heard → Bool
  | .good _ => true
  | .bad => true
  | .silent => false

/-- R72: complete on every usable wire. -/
def allComplete (c : Chain) (e : Ears) : Bool :=
  (c.failedA || e.retA.isComplete) && (c.failedB || e.retB.isComplete)

/-- R72, R76: the wires decide the transaction before its 2 ms have passed; in a TRAIN attempt the selected wire plays
no part. -/
def decisive (c : Chain) (call : Call) (e : Ears) : Bool :=
  allComplete c e || (call ≠ .train && (e.on c.selected).isGood)

/-- R72: a transaction's result: the answer it succeeds with and whether the wires are swapped, or its failure. -/
inductive Result where
  | answered (a : Answer) (swap : Bool)
  | failed (o : TransactionOutcome)
deriving DecidableEq, Repr

/-- R72: the outcome, once the transaction is decided. -/
def resultOf (c : Chain) (e : Ears) : Result :=
  match e.on c.selected, e.on (otherWire c.selected) with
  | .good a, _ => .answered a false
  | .bad, .good a => .answered a true
  | .silent, .good a => .answered a true
  | .bad, .bad => .failed .badCheck
  | .bad, .silent => .failed .badCheck
  | .silent, .bad => .failed .badCheck
  | .silent, .silent => .failed .noAnswer

/-! ### Calls sent -/

def sendCall (p : PortId) (call : Call) (s : State) : State :=
  s.modChain p fun c => { c with inFlight := some call }

/-- R76: a TRAIN attempt, with the next one 5 ms after its call begins. -/
def sendTrain (p : PortId) (s : State) : State :=
  s.modChain p fun c => { c with inFlight := some .train, trainTries := c.trainTries + 1, trainLeft := some 5 }

/-- R77: the first try of ROLLCALL(k). -/
def sendRollcall (p : PortId) (k : ModulePos) (s : State) : State :=
  s.modChain p fun c => { c with inFlight := some (.rollcall k), callTries := 0 }

/-! ### TRAIN (R76) and the probe (R81) -/

/-- R76: the marks on entry to TRAIN. -/
def Chain.enterTrain (c : Chain) : Chain :=
  { c with
    failedA := c.sticky && c.failedA, failedB := c.sticky && c.failedB, restLeft := none, trainTries := 0 }

/-- R75, R76: entry to TRAIN, and its first attempt. -/
def beginTrain (p : PortId) (s : State) : State :=
  sendTrain p (changeChain p .train .step (s.modChain p Chain.enterTrain))

/-- R76, R77: the marks of a successful attempt, and ROLLCALL at its start. -/
def Chain.trained (e : Ears) (c : Chain) : Chain :=
  { c with
    failedA := c.failedA || !e.retA.isGood, failedB := c.failedB || !e.retB.isGood,
    selected := if e.retA.isGood then .retA else .retB,
    overlong := false, found := [], trainLeft := none }

/-- R76: the outcome of a TRAIN attempt. The eighth failure takes the chain to EMPTY (log 13). -/
def trainOutcome (p : PortId) (e : Ears) (s : State) : State :=
  if e.retA.isGood || e.retB.isGood then
    sendRollcall p 0 (changeChain p .rollcall .step (s.modChain p (Chain.trained e)))
  else if 8 ≤ (s.chain p).trainTries then enterEmpty p .noPattern s
  else s

/-- R81: the outcome of a probe; it changes no mark. -/
def probeOutcome (p : PortId) (e : Ears) (s : State) : State :=
  if e.retA.isGood || e.retB.isGood then enterBringUp p .probe [] s else s

/-! ### ROLLCALL (R77, R78, R98) -/

/-- R78, R98: a new record; its poll countdown until the START write sets it (R85) is the model's choice, 1 (log 42). -/
def newRecord (x : Identity) : ModuleRecord :=
  { kind := x.kind, model := x.model, valueCount := x.valueCount, settleTime := x.settleTime, format := none,
    range := none, rate := none, start := some zeroPage, divider := 1, countdown := 1, state := .configuring,
    settleLeft := 0, bucket := 0, misses := 0, failing := false, last := none }

/-- R78, R98: a matched record; its poll countdown stays until the START write sets it (R85, log 42). -/
def matchedRecord (r : ModuleRecord) (x : Identity) : ModuleRecord :=
  { r with
    valueCount := x.valueCount, settleTime := x.settleTime, state := .configuring, settleLeft := 0, bucket := 0,
    misses := 0, failing := false, last := none }

/-- R78: the record settled at a position. -/
def settledRecord (old : Option ModuleRecord) (x : Identity) : ModuleRecord :=
  match old with
  | some r => if r.kind = x.kind ∧ r.model = x.model then matchedRecord r x else newRecord x
  | none => newRecord x

/-- R78: the records that a rollcall leaves. -/
def settledRecords : List ModuleRecord → List Identity → List ModuleRecord
  | _, [] => []
  | [], x :: xs => settledRecord none x :: settledRecords [] xs
  | r :: rs, x :: xs => settledRecord (some r) x :: settledRecords rs xs

/-- R79: the page transactions of one module: a page awaiting its read is read, another written; START is written. -/
def moduleTodo (k : ModulePos) (r : ModuleRecord) : List ConfigOp :=
  [⟨k, .format, r.format.isSome⟩, ⟨k, .range, r.range.isSome⟩, ⟨k, .rate, r.rate.isSome⟩, ⟨k, .start, true⟩]

/-- R79: the page transactions of the chain, in order. -/
def configList (modules : List ModuleRecord) : List ConfigOp :=
  allPositions.flatMap fun k =>
    match modules[k.val]? with
    | some r => moduleTodo k r
    | none => []

/-- R79: the call of a page transaction of CONFIG. -/
def configCall (c : Chain) (op : ConfigOp) : Call :=
  if op.write then .setPage op.pos op.page (((c.modules[op.pos.val]?).bind (shadow · op.page)).getD zeroPage)
  else .getPage op.pos op.page

/-- R79: the call of the transaction at the head of the list, if any. -/
def configHead (c : Chain) : Option Call := c.configTodo.head?.map (configCall c)

/-- R78: the records settled, with CONFIG's list. -/
def Chain.settled (c : Chain) : Chain :=
  let records := settledRecords c.modules c.found
  { c with modules := records, found := [], callTries := 0, configTodo := configList records }

/-- R104: the notices of the records that a rollcall has settled. -/
def rollcallNotices (p : PortId) (s : State) : State :=
  (heldPositions (s.chain p)).foldl (fun t k => moduleNotice p k .absent .rollcall t) s

/-- The positions named by a report at the end of a rollcall: those settled, replaced or removed (R104). -/
def rollcallChanged (before after : Chain) : List ModulePos :=
  allPositions.filter fun k => k.val < before.modules.length || k.val < after.modules.length

/-- R77, R78: the end of a rollcall that found modules. -/
def endRollcall (p : PortId) (s : State) : State :=
  let before := s.chain p
  let s1 := s.modChain p Chain.settled
  let after := s1.chain p
  let s2 := changeChain p .config .step (rollcallNotices p s1)
  let s3 := s2.modChain p fun c => { c with inFlight := configHead c }
  moduleReport p (rollcallChanged before after) s3

/-- R77, R78: a rollcall that found no module: EMPTY, and no records. -/
def endRollcallEmpty (p : PortId) (s : State) : State :=
  let removed := heldPositions (s.chain p)
  moduleReport p removed (enterEmpty p .noModule (s.modChain p fun c => { c with modules := [] }))

/-- R77: a good rollcall answer. -/
def rollcallAnswer (p : PortId) (k : ModulePos) (x : Identity) (last : Bool) (s : State) : State :=
  let s1 := s.modChain p fun c => { c with found := c.found ++ [x], overlong := c.overlong || (k = 3 && !last) }
  if last ∨ k = 3 then endRollcall p s1 else sendRollcall p (k + 1) s1

/-- R77: the outcome of a try of ROLLCALL(k). -/
def rollcallOutcome (p : PortId) (k : ModulePos) (x : Result) (s : State) : State :=
  match x with
  | .answered (.rollcall _ kind model n settle last) _ => rollcallAnswer p k ⟨kind, model, n, settle⟩ last s
  | .answered _ _ => s
  | .failed .noAnswer => if k = 0 then endRollcallEmpty p s else endRollcall p s
  | .failed _ =>
    let tries := (s.chain p).callTries + 1
    if 3 ≤ tries then enterFault p .rollcallFailed s
    else s.modChain p fun c => { c with inFlight := some (.rollcall k), callTries := tries }

/-! ### CONFIG (R79, R80) -/

/-- R80: the chain as CONFIG leaves it. -/
def Chain.configured (c : Chain) : Chain :=
  { c with
    syncPending := true, syncLeft := some c.syncPeriod,
    modules := c.modules.map fun r => { r with countdown := r.divider } }

/-- R79: the next page transaction; after the last, ACTIVE, or DEGRADED when a wire is marked failed. -/
def configNext (p : PortId) (s : State) : State :=
  let s1 := s.modChain p fun c => { c with configTodo := c.configTodo.tail, callTries := 0 }
  match configHead (s1.chain p) with
  | some call => sendCall p call s1
  | none =>
    let c := s1.chain p
    changeChain p (if c.failedA || c.failedB then .degraded else .active) .step (s1.modChain p Chain.configured)

/-- R79: a page of the record read in CONFIG. -/
def storePage (p : PortId) (k : ModulePos) (page : Page) (bytes : PageBytes) (s : State) : State :=
  match s.module p k with
  | some r => s.setModule p k (setShadow r page bytes)
  | none => s

/-- R79, R85: the START write of a module done: SETTLING, and its countdown at its divider. -/
def startWritten (p : PortId) (k : ModulePos) (s : State) : State :=
  match s.module p k with
  | some r => enterSettling p k .start (s.setModule p k { r with countdown := r.divider })
  | none => s

/-- R79: a page transaction of CONFIG succeeded. -/
def configDone (p : PortId) (op : ConfigOp) (a : Answer) (s : State) : State :=
  match a with
  | .pageAnswer _ _ bytes => configNext p (storePage p op.pos op.page bytes s)
  | _ =>
    if op.page = .start then moduleReport p [op.pos] (configNext p (startWritten p op.pos s)) else configNext p s

/-- R79: the outcome of a try of CONFIG. -/
def configOutcome (p : PortId) (call : Call) (x : Result) (s : State) : State :=
  match (s.chain p).configTodo with
  | [] => s
  | op :: _ =>
    match x with
    | .answered a _ => configDone p op a s
    | .failed _ =>
      let tries := (s.chain p).callTries + 1
      if 3 ≤ tries then enterFault p .pageFailed s
      else s.modChain p fun c => { c with inFlight := some call, callTries := tries }

/-! ### Error accounting (R100, R101) -/

/-- R100: an outcome charged to a record; an ABSENT module is charged no further, and at four misses a module becomes
ABSENT. -/
def chargedRecord (threshold : Nat) (o : TransactionOutcome) (r : ModuleRecord) : ModuleRecord :=
  if r.state = .absent then r
  else
    let r1 := chargeModule threshold o r
    if 4 ≤ r1.misses then absentRecord r1 else r1

/-- R104: the notice of a charged outcome: an absence, or a change of FAILING alone; and whether there was a change. -/
def chargeNotice (p : PortId) (k : ModulePos) (before after : ModuleRecord) (s : State) : State × List ModulePos :=
  if after.state = .absent ∧ before.state ≠ .absent then (moduleNotice p k before.state .misses s, [k])
  else if after.failing ≠ before.failing then
    (moduleNotice p k after.state (if after.failing then .failingSet else .failingCleared) s, [k])
  else (s, [])

/-- R100, R101: a failed try charged, with what follows from it. `s` is the chain with the try's own end taken. -/
def chargeFailure (p : PortId) (k : ModulePos) (o : TransactionOutcome) (endTry : State → State) (s : State) : State :=
  match s.module p k with
  | none => endTry s
  | some r =>
    let r1 := chargedRecord (s.chain p).threshold o r
    let gone : Bool := r1.state = .absent && r.state ≠ .absent
    let s1 := s.setModule p k r1
    let s2 := if r.state = .ready ∧ gone then staleServed p k s1 else s1
    let (s3, changed) := chargeNotice p k r r1 (endTry s2)
    afterAbsence p gone changed s3

/-! ### Polls (R86, R102) -/

/-- R102: the last sample stored, and the sample handed to the channel map. -/
def storeSample (p : PortId) (k : ModulePos) (x : Sample) (s : State) : State :=
  match s.module p k with
  | none => s
  | some r =>
    let r1 := { r with last := some x }
    channelSample ⟨p, k⟩ r1 x (s.setModule p k r1)

/-- R83: BEYOND from position n while OVERLONG is clear. -/
def extends? (c : Chain) (k : ModulePos) (beyond : Bool) : Bool :=
  beyond && !c.overlong && k.val + 1 = c.modules.length

/-- R86, R102: the sample of a good poll, when it belongs to the round. -/
def takePollSample (p : PortId) (k : ModulePos) (stamp : Word) (values : List Half) (s : State) : State :=
  if stamp = (s.chain p).roundStamp then storeSample p k ⟨values, stamp⟩ s else s

/-- R86: a successful poll: charged first, then its sample, then BEYOND (log 20). The event has one module report
(R104): before the sample, or, when BEYOND restarts the chain, after the CHAIN_STATE notice of the restart. A change of
FAILING that comes with such a restart is told by the module's ABSENT notice, in its place (log 11). -/
def pollAnswer (p : PortId) (k : ModulePos) (stamp : Word) (values : List Half) (beyond : Bool) (s : State) : State :=
  match s.module p k with
  | none => s
  | some r =>
    let r1 := chargedRecord (s.chain p).threshold .success r
    let s1 := s.setModule p k r1
    if extends? (s1.chain p) k beyond then restartChain p .extended [] (takePollSample p k stamp values s1)
    else
      let (s2, changed) := chargeNotice p k r r1 s1
      takePollSample p k stamp values (moduleReport p changed s2)

/-- R86: the outcome of a POLL. -/
def pollOutcome (p : PortId) (k : ModulePos) (x : Result) (s : State) : State :=
  match x with
  | .answered (.sample _ stamp values beyond) _ => pollAnswer p k stamp values beyond s
  | .answered _ _ => s
  | .failed o => chargeFailure p k o id s

/-! ### Page operations (R89, R90, R102) -/

/-- The outcome of an ended page operation: done with a read's bytes, done, or failed. -/
inductive OpEnd where
  | written
  | read (page : Page) (bytes : PageBytes)
  | failed
deriving DecidableEq, Repr

def opReply : OpEnd → Reply
  | .written => Reply.ok false .empty
  | .read page bytes => Reply.ok false (.page page bytes)
  | .failed => Reply.refuse .failed

/-- R89, R90: the operation at the head has ended: it leaves the queue, and its outcome goes to its sender. -/
def endHead (p : PortId) (op : PageOp) (x : OpEnd) (s : State) : State :=
  let s1 := s.modChain p Chain.dropHead
  match op.origin with
  | .request src slot => s1.post src slot (opReply x)
  | .copy => copyWriteEnded (x ≠ .failed) s1
  | .orphan => s1

/-- R89, R102: the record after a successful write: the shadow page, and the settle timer from the write. -/
def writtenRecord (page : Page) (bytes : PageBytes) (r : ModuleRecord) : ModuleRecord :=
  let r1 := setShadow r page bytes
  if r.state = .settling then { r1 with settleLeft := r1.settleTime } else r1

/-- R89, R99: a successful write at a module: READY becomes SETTLING, and SETTLING times again unreported. -/
def writeSucceeded (p : PortId) (k : ModulePos) (page : Page) (bytes : PageBytes) (before : ModuleRecord)
    (s : State) : State × List ModulePos :=
  match s.module p k with
  | none => (s, [])
  | some r =>
    let s1 := s.setModule p k (writtenRecord page bytes r)
    if r.state = .ready then (enterSettling p k .pageWrite s1, [k]) else chargeNotice p k before r s1

/-- R89: a successful try of the operation at the head. -/
def opSucceeded (p : PortId) (op : PageOp) (a : Answer) (s : State) : State :=
  match s.module p op.pos with
  | none => s
  | some r =>
    let s1 := s.setModule p op.pos (chargedRecord (s.chain p).threshold .success r)
    match op.bytes, a with
    | some bytes, _ =>
      let (s2, changed) := writeSucceeded p op.pos op.page bytes r s1
      moduleReport p changed (endHead p op .written s2)
    | none, .pageAnswer _ _ bytes =>
      let s2 := storePage p op.pos op.page bytes s1
      let (s3, changed) := chargeNotice p op.pos r (chargedRecord (s.chain p).threshold .success r) s2
      moduleReport p changed (endHead p op (.read op.page bytes) s3)
    | none, _ => s1

/-- R89: one more failed try of the operation at the head; the third ends it. -/
def opTryFailed (p : PortId) (op : PageOp) (s : State) : State :=
  if 3 ≤ op.tries + 1 then endHead p op .failed s
  else s.modChain p fun c => { c with queue := { op with tries := op.tries + 1 } :: c.queue.tail }

/-- R89: the outcome of a try of the operation at the head. -/
def opOutcome (p : PortId) (x : Result) (s : State) : State :=
  match (s.chain p).queue with
  | [] => s
  | op :: _ =>
    match x with
    | .answered a _ => opSucceeded p op a s
    | .failed o => chargeFailure p op.pos o (opTryFailed p op) s

/-! ### Wire hand-out (R85, R87) -/

/-- R85: the poll countdown of a module at a SYNC, and whether the module joins the round. -/
def countPoll (r : ModuleRecord) : ModuleRecord × Bool :=
  if r.state = .absent then (r, false)
  else if r.countdown ≤ 1 then ({ r with countdown := r.divider }, true)
  else ({ r with countdown := r.countdown - 1 }, false)

/-- R85: the chain when a SYNC is sent at part time `now`. -/
def Chain.sync (now : Word) (c : Chain) : Chain :=
  { c with
    inFlight := some (.sync now), roundStamp := now, syncPending := false,
    modules := c.modules.map fun r => (countPoll r).1,
    round := allPositions.filter fun k =>
      match c.modules[k.val]? with
      | some r => (countPoll r).2
      | none => false }

/-- Whether a chain holds a module that is not ABSENT at a position. -/
def present (c : Chain) (k : ModulePos) : Bool :=
  match c.modules[k.val]? with
  | some r => r.state ≠ .absent
  | none => false

def opCall (op : PageOp) : Call :=
  match op.bytes with
  | some bytes => .setPage op.pos op.page bytes
  | none => .getPage op.pos op.page

/-- R87: something waits for the idle wire of a live chain. -/
def Chain.wants (c : Chain) : Bool :=
  c.live && c.inFlight.isNone && (c.syncPending || c.round ≠ [] || c.queue ≠ [])

/-- R87: one hand-out of the wire: a SYNC, else the next module of the round, else the head of the queue. A module that
has become ABSENT is passed over, and an operation on it ends FAILED without a try (R85, R89). -/
def handOut (p : PortId) (s : State) : State :=
  let c := s.chain p
  if c.syncPending then s.modChain p (Chain.sync s.time)
  else
    match c.round, c.queue with
    | k :: rest, _ =>
      s.setChain p { c with round := rest, inFlight := if present c k then some (.poll k) else none }
    | [], op :: _ =>
      if present c op.pos then sendCall p (opCall op) s else endHead p op .failed s
    | [], [] => s

/-- R87: every idle wire is handed out until none wants it. Each turn sends a call, passes one module over, or ends one
operation. -/
def settleWires : Nat → State → State
  | 0, s => s
  | n + 1, s =>
    match allPorts.find? fun p => Chain.wants (s.chain p) with
    | none => s
    | some p => settleWires n (handOut p s)

/-- R87: the wires handed out after an event at chain `p`: its own wire first, then those that follow from it. -/
def handOutFrom (p : PortId) (s : State) : State :=
  settleWires 256 (if Chain.wants (s.chain p) then handOut p s else s)

/-! ### Transactions (R72) -/

/-- R72, R73: the wire swap of a transaction that succeeded on the other wire; a TRAIN attempt has its own rule (R76).
-/
def takeSwap (p : PortId) (call : Call) (x : Result) (s : State) : State :=
  match x with
  | .answered _ true => if call = .train then s else swapWire p s
  | .answered _ false => s
  | .failed _ => s

/-- R72: the transaction in flight ends, with the wire swap first (R73); its outcome is taken by what sent it. -/
def takeOutcome (p : PortId) (call : Call) (e : Ears) (s : State) : State :=
  let x := resultOf (s.chain p) e
  let s1 := s.modChain p fun c => { c with inFlight := none }
  let s2 := takeSwap p call x s1
  match call with
  | .train => if (s.chain p).state = .empty then probeOutcome p e s1 else trainOutcome p e s1
  | .rollcall k => rollcallOutcome p k x s2
  | .poll k => pollOutcome p k x s2
  | .setPage _ _ _ => if (s.chain p).state = .config then configOutcome p call x s2 else opOutcome p x s2
  | .getPage _ _ => if (s.chain p).state = .config then configOutcome p call x s2 else opOutcome p x s2
  | .resetAll => s
  | .sync _ => s

/-- R72: the answers heard end the transaction when they decide it, or when its 2 ms have passed. -/
def answersHeard (p : PortId) (expired : Bool) (a b : WireAnswer) (s : State) : State :=
  let c := s.chain p
  match c.inFlight with
  | none => s
  | some .resetAll => s
  | some (.sync _) => s
  | some call =>
    let e := hear c call a b
    if expired || decisive c call e then handOutFrom p (takeOutcome p call e s) else s

/-- R72, R74, R75: a RESET_ALL or SYNC has gone out: its transaction ends; after RESET_ALL the wire rests 20 ms. -/
def callSent (p : PortId) (s : State) : State :=
  match (s.chain p).inFlight with
  | some .resetAll => s.modChain p fun c => { c with inFlight := none, restLeft := some 20 }
  | some (.sync _) => handOutFrom p (s.modChain p fun c => { c with inFlight := none })
  | _ => s

/-! ### Timers (R75, R76, R81, R82, R84, R99, R100) -/

/-- R75: the rest ends. -/
def restExpiry (p : PortId) (s : State) : State :=
  if (s.chain p).state = .reset ∧ (s.chain p).restLeft.isSome then beginTrain p s else s

/-- R76: 5 ms after the previous attempt's call began; an attempt still in flight keeps the wire (R72). -/
def trainRetry (p : PortId) (s : State) : State :=
  let c := s.chain p
  if c.state = .train ∧ c.trainLeft.isSome ∧ c.inFlight = none then sendTrain p s else s

/-- R81: a TRAIN probe, and the next one 200 ms after it begins. -/
def probeExpiry (p : PortId) (s : State) : State :=
  let c := s.chain p
  if c.state = .empty ∧ c.probeLeft.isSome ∧ c.inFlight = none then
    s.setChain p { c with inFlight := some .train, probeLeft := some 200 }
  else s

/-- R82: the retry of a chain in FAULT. -/
def faultRetry (p : PortId) (s : State) : State :=
  if (s.chain p).state = .fault ∧ (s.chain p).retryLeft.isSome then handOutFrom p (enterBringUp p .retry [] s) else s

/-- R84: the sync timer expires: sync pending, and the timer starts again at the sync period. -/
def syncExpiry (p : PortId) (s : State) : State :=
  let c := s.chain p
  if c.live ∧ c.syncLeft.isSome then
    handOutFrom p (s.setChain p { c with syncPending := true, syncLeft := some c.syncPeriod })
  else s

/-- R99: the settle timer expires. -/
def settleExpiry (p : PortId) (k : ModulePos) (s : State) : State :=
  match s.module p k with
  | none => s
  | some r =>
    if r.state = .settling then handOutFrom p (moduleReport p [k] (changeModule p k .settled readyRecord s)) else s

/-- R100, R83: the misses of a module of a live chain reach 4. The command stands for that moment alone: it sets the
misses to 4 and charges no outcome, so the bucket and FAILING stay as they stand (log 39). -/
def missesAbsent (p : PortId) (k : ModulePos) (s : State) : State :=
  match s.module p k with
  | none => s
  | some r =>
    if (s.chain p).live ∧ (r.state = .settling ∨ r.state = .ready) then
      handOutFrom p
        (afterAbsence p true [k] (changeModule p k .misses (fun x => absentRecord { x with misses := 4 }) s))
    else s

/-! ### Requests (R88, R92 to R94, R103) -/

/-- R92: CHAIN_RESTART. -/
def chainRestart (port : Nat) (option : Coded RestartOption) (s : State) : State × Reply :=
  match index 4 port, Coded.get? option with
  | some p, some .restart =>
    let s1 := (abortWork p s).modChain p fun c => { c with faultCount := 0 }
    (handOutFrom p (enterBringUp p .request [] s1), ⟨.accepted, false, .empty⟩)
  | some p, some .off =>
    if (s.chain p).state = .off then (s, Reply.ok false .empty)
    else
      let s1 := (abortWork p s).modChain p fun c => { c with faultCount := 0 }
      (handOutFrom p (enterOff p s1), Reply.ok false .empty)
  | _, _ => (s, Reply.refuse .badValue)

/-- R93: the dividers of a change set, by position. -/
def dividerField (f : ChainSetFields) (k : ModulePos) : Option Int :=
  match k with
  | 0 => f.divider1
  | 1 => f.divider2
  | 2 => f.divider3
  | 3 => f.divider4

/-- R93: a divider written into its record, with the poll countdown. -/
def setDivider (f : ChainSetFields) (k : ModulePos) (r : ModuleRecord) : ModuleRecord :=
  match dividerField f k with
  | some x => { r with divider := clampNat 1 25 x, countdown := clampNat 1 25 x }
  | none => r

def Chain.setDividers (f : ChainSetFields) (c : Chain) : Chain :=
  { c with modules := c.modules.mapIdx fun i r => if h : i < 4 then setDivider f ⟨i, h⟩ r else r }

/-- R93: the settings of a change set, clamped. -/
def Chain.applySettings (f : ChainSetFields) (c : Chain) : Chain :=
  Chain.setDividers f
    { c with
      syncPeriod := ((clampField 10 100 f.syncPeriod).1).getD c.syncPeriod
      threshold := ((clampField 16 255 f.threshold).1).getD c.threshold
      sticky := f.sticky.getD c.sticky }

def settingsClamped (f : ChainSetFields) : Bool :=
  (clampField 10 100 f.syncPeriod).2 || (clampField 16 255 f.threshold).2 ||
    allPositions.any fun k => (clampField 1 25 (dividerField f k)).2

/-- R93: CHAIN_SET. -/
def chainSet (port : Nat) (f : ChainSetFields) (s : State) : State × Reply :=
  match index 4 port with
  | none => (s, Reply.refuse .badValue)
  | some p =>
    if allPositions.any fun k => (dividerField f k).isSome && (s.module p k).isNone then
      (s, Reply.refuse .badValue)
    else
      let c := (s.chain p).applySettings f
      (s.setChain p c,
        Reply.ok (settingsClamped f)
          (.chainSettings ⟨c.syncPeriod, c.threshold, c.sticky, c.modules.map ModuleRecord.divider⟩))

/-- R94: the content of CHAIN_READ's reply. -/
def chainReport (c : Chain) : ChainReport :=
  { state := c.state, count := c.modules.length, overlong := c.overlong,
    modules := c.modules.map fun r => (r.kind, r.model, r.state),
    failedA := c.failedA, failedB := c.failedB, selected := c.selected, syncPeriod := c.syncPeriod,
    threshold := c.threshold, sticky := c.sticky, syncPending := c.syncPending, faultCount := c.faultCount,
    queued := c.queue.length, heldAside := c.aside ≠ [] }

/-- R94: CHAIN_READ. -/
def chainRead (port : Nat) (s : State) : State × Reply :=
  match index 4 port with
  | none => (s, Reply.refuse .badValue)
  | some p => (s, Reply.ok false (.chain (chainReport (s.chain p))))

/-- R103: MODULE_READ. -/
def moduleRead (port pos : Nat) (s : State) : State × Reply :=
  match moduleName port pos with
  | none => (s, Reply.refuse .badValue)
  | some n =>
    match s.module n.port n.pos with
    | none => (s, Reply.refuse .badValue)
    | some r => (s, Reply.ok false (.module n.pos r (backedChannel s n)))

/-- R88: a page request: refused at once, or at the tail of the chain's queue with its reply deferred. -/
def pageRequest (src : Source) (port pos page : Nat) (bytes : Option PageBytes) (slot : Fin 8) (s : State) :
    State × Option Reply :=
  match moduleName port pos, pageOf page with
  | some n, some pg =>
    let c := s.chain n.port
    match pageRefusal c n.pos with
    | some st => (s, some (Reply.refuse st))
    | none =>
      if 8 ≤ c.queue.length then (s, some (Reply.refuse .full))
      else
        (handOutFrom n.port
            (s.setChain n.port { c with queue := c.queue ++ [⟨n.pos, pg, bytes, 0, .request src slot⟩] }), none)
  | _, _ => (s, some (Reply.refuse .badValue))

/-- R92. -/
def execChainRestart (src : Source) (tag : Byte) (port : Nat) (option : Coded RestartOption) (s : State) : Out :=
  .next (serve .chainRestart src tag (chainRestart port option) s)

/-- R93. -/
def execChainSet (src : Source) (tag : Byte) (port : Nat) (f : ChainSetFields) (s : State) : Out :=
  .next (serve .chainSet src tag (chainSet port f) s)

/-- R94. -/
def execChainRead (src : Source) (tag : Byte) (port : Nat) (s : State) : Out :=
  .next (serve .chainRead src tag (chainRead port) s)

/-- R103. -/
def execModuleRead (src : Source) (tag : Byte) (port pos : Nat) (s : State) : Out :=
  .next (serve .moduleRead src tag (moduleRead port pos) s)

/-- R88, R89. -/
def execModulePageWrite (src : Source) (tag : Byte) (port pos page : Nat) (bytes : PageBytes) (s : State) : Out :=
  .next (serveLater .modulePageWrite src tag (pageRequest src port pos page (some bytes)) s)

/-- R88, R89. -/
def execModulePageRead (src : Source) (tag : Byte) (port pos page : Nat) (s : State) : Out :=
  .next (serveLater .modulePageRead src tag (pageRequest src port pos page none) s)

/-- R75. -/
def execResetRestExpiry (p : PortId) (s : State) : Out := .next (restExpiry p s)

/-- R76. -/
def execTrainRetryTimer (p : PortId) (s : State) : Out := .next (trainRetry p s)

/-- R81. -/
def execEmptyProbeTimer (p : PortId) (s : State) : Out := .next (probeExpiry p s)

/-- R82. -/
def execFaultRetryTimer (p : PortId) (s : State) : Out := .next (faultRetry p s)

/-- R84. -/
def execSyncTimerExpiry (p : PortId) (s : State) : Out := .next (syncExpiry p s)

/-- R72. -/
def execCallSent (p : PortId) (s : State) : Out := .next (callSent p s)

/-- R72: the answers are good on the selected wire, or complete on every usable wire; otherwise the transaction goes on.
-/
def execTransactionEnd (p : PortId) (retA retB : WireAnswer) (s : State) : Out :=
  .next (answersHeard p false retA retB s)

/-- R72: 2 ms have passed since the call ended. -/
def execAnswerTimeout (p : PortId) (retA retB : WireAnswer) (s : State) : Out :=
  .next (answersHeard p true retA retB s)

/-- R100. -/
def execMissesAbsent (p : PortId) (pos : ModulePos) (s : State) : Out := .next (missesAbsent p pos s)

/-- R99. -/
def execSettleExpiry (p : PortId) (pos : ModulePos) (s : State) : Out := .next (settleExpiry p pos s)

end Sys2Proof.Machine
end

