-- ==== Sys2Proof/Machine/Claims.lean ====
section
/-! DEFINITION. The claim table: CLAIM, RELEASE, RENEW, TAKE, lease expiry, and the end of a claim (Chapter 9). -/

namespace Sys2Proof.Machine

/-- R159: a reply of the claim table, with the resources it lists (log 19). -/
def claimReply (st : Status) (clamped : Bool) (listed : List Resource) (s : State) : Reply :=
  ⟨st, clamped, .claims (claimTable s) listed⟩

/-- The resources of a set, in the order M0–M5, V0–V3. -/
def inOrder (set : List Resource) : List Resource := allResources.filter fun r => set.contains r

def otherSource : Source → Source
  | .program => .tablet
  | .tablet => .program

/-! ### Ending a claim (R161) -/

/-- Table 9-2: the segment end reason of a motor. -/
def segmentReason : ClaimEndReason → EndReason
  | .released => .released
  | .taken => .taken
  | .lease => .lease
  | .linkDown => .lease

/-- Table 9-2: the fade-stop reason of a voice. -/
def fadeReason : ClaimEndReason → VoiceEndReason
  | .released => .released
  | .taken => .taken
  | .lease => .lease
  | .linkDown => .lease

/-- Table 9-2: the stop action of a motor: HOLD for TAKEN, else the loss_action in force. -/
def lossStop (reason : ClaimEndReason) (mo : Motor) : StopAction :=
  match reason with
  | .taken => .hold
  | .released => mo.config.lossAction
  | .lease => mo.config.lossAction
  | .linkDown => mo.config.lossAction

/-- R161 step 1, R38. -/
def claimStop (r : Resource) (reason : ClaimEndReason) (s : State) : State :=
  match r with
  | .motor m => afterEvents (stopAction m (segmentReason reason) (lossStop reason (s.motor m)) s)
  | .voice v => fadeStop react v (fadeReason reason) s

/-- R161: the four steps of a claim end; `new` is the record that takes its place. -/
def endClaim (r : Resource) (reason : ClaimEndReason) (new : Claim) (s : State) : State :=
  let lost := s.owner r
  let s1 := (claimStop r reason s).setClaim r new
  react (.claimEnd r reason) (s1.placeBoth (.claimEnd r reason lost new.owner s1.time))

/-! ### Requests -/

/-- R160: CLAIM. -/
def claimRequest (src : Source) (f : ClaimFields) (s : State) : State × Reply :=
  let set := inOrder f.set
  if set = [] then (s, claimReply .badValue false [] s)
  else
    let held := set.filter fun r => s.owner r = some (otherSource src)
    if held ≠ [] then (s, claimReply .held false held s)
    else
      let s1 := set.foldl (fun t r => t.setClaim r ⟨some src, clampLease src f.lease⟩) s
      (s1, claimReply .ok (leaseClamped src f.lease) [] s1)

/-- R162, R163: the resources of a set that the sender does not own. -/
def notOwned (src : Source) (set : List Resource) (s : State) : List Resource :=
  set.filter fun r => s.owner r ≠ some src

/-- R162: RELEASE. -/
def releaseRequest (src : Source) (resources : List Resource) (s : State) : State × Reply :=
  let set := inOrder resources
  if set = [] then (s, claimReply .badValue false [] s)
  else
    let s1 :=
      set.foldl (fun t r => if t.owner r = some src then endClaim r .released Claim.none t else t) s
    (s1, claimReply .ok false (notOwned src set s) s1)

/-- R163: RENEW. -/
def renewRequest (src : Source) (resources : List Resource) (s : State) : State × Reply :=
  let set := inOrder resources
  if set = [] then (s, claimReply .badValue false [] s)
  else
    let s1 := set.foldl (fun t r => if t.owner r = some src then t.restartLease r else t) s
    (s1, claimReply .ok false (notOwned src set s) s1)

/-- R164: one resource taken. -/
def takeOne (lease : Option Lease) (s : State) (r : Resource) : State :=
  if s.owner r = some .tablet then endClaim r .taken ⟨some .program, lease⟩ s
  else s.setClaim r ⟨some .program, lease⟩

/-- R164: TAKE. -/
def takeRequest (f : ClaimFields) (s : State) : State × Reply :=
  let set := inOrder f.set
  if set = [] then (s, claimReply .badValue false [] s)
  else
    let s1 := set.foldl (takeOne (clampLease .program f.lease)) s
    (s1,
      claimReply .ok (leaseClamped .program f.lease) (set.filter fun r => s.owner r = some .tablet) s1)

/-- R160. -/
def execClaim (src : Source) (tag : Byte) (f : ClaimFields) (s : State) : Out :=
  .next (serve .claim src tag (claimRequest src f) s)

/-- R162. -/
def execRelease (src : Source) (tag : Byte) (set : List Resource) (s : State) : Out :=
  .next (serve .release src tag (releaseRequest src set) s)

/-- R163. -/
def execRenew (src : Source) (tag : Byte) (set : List Resource) (s : State) : Out :=
  .next (serve .renew src tag (renewRequest src set) s)

/-- R164. -/
def execTake (src : Source) (tag : Byte) (f : ClaimFields) (s : State) : Out :=
  .next (serve .take src tag (takeRequest f) s)

/-- R165: a lease timer expires; a resource without a lease has no timer (log 2). -/
def execLeaseExpiry (r : Resource) (s : State) : Out :=
  .next (if (s.claim r).lease.isSome then endClaim r .lease Claim.none s else s)

end Sys2Proof.Machine
end

