-- ==== Sys2Proof/Config.lean ====
section
/-! DEFINITION. What the spec leaves open: how the bodies of most requests spell their named fields, and how
the contents of replies and notices are laid out in bytes. chapter 11 gives the layouts of the frame, the status
byte, the segment record and the telemetry item only; "elsewhere every message is given as named fields"
(00_scope.md, Message kinds). Each constant has no body: nothing can be proved about its values (log 4, log 35). -/

namespace Sys2Proof

/-! ### The named fields that a request body spells, but for its numbers (free functions of the body's bytes, log 4; a
set of resources holds resources alone, log 44) -/

opaque Config.claimBody : List Byte → ClaimFields
opaque Config.releaseBody : List Byte → List Resource
opaque Config.renewBody : List Byte → List Resource
opaque Config.takeBody : List Byte → ClaimFields
opaque Config.motorSetBody : List Byte → Nat × MotorSetFields
opaque Config.zeroBody : List Byte → Nat
opaque Config.haltBody : List Byte → Nat × Coded StopAction
opaque Config.chainRestartBody : List Byte → Nat × Coded RestartOption
opaque Config.chainSetBody : List Byte → Nat × ChainSetFields
opaque Config.moduleReadBody : List Byte → Nat × Nat
opaque Config.pageWriteBody : List Byte → Nat × Nat × Nat × PageBytes
opaque Config.pageReadBody : List Byte → Nat × Nat × Nat
opaque Config.mapSetBody : List Byte → MapFields
opaque Config.watchSetBody : List Byte → WatchFields
/-- The fields of a REACT_SET but for its stored segment, which is read as Table 11-4 gives. -/
opaque Config.reactSetBody : List Byte → ReactFields
/-- Where in the 37 bytes of a REACT_SET body the 26 bytes of its stored segment begin. -/
opaque Config.reactSegmentPlace : List Byte → Fin 12
opaque Config.reactReadBody : List Byte → ReadTarget
opaque Config.windowSetBody : List Byte → WindowFields
opaque Config.storeWriteBody : List Byte → List Byte
opaque Config.clipDefineBody : List Byte → ClipFields
opaque Config.cueSetBody : List Byte → CueFields
opaque Config.playBody : List Byte → Nat × Nat
opaque Config.stopBody : List Byte → Nat × Coded FadeOption
opaque Config.voiceGainBody : List Byte → Nat
opaque Config.subscribeBody : List Byte → SubscribeFields

/-! ### Numbers whose sign the spec leaves open (log 4) -/

/-- Whether the number of a BUDGET_SET body is signed. -/
opaque Config.budgetSigned : Bool
/-- Whether the number of a MASTER_SET body is signed. -/
opaque Config.masterSigned : Bool

/-! ### Where the numbers of a body stand (log 4) -/

/-- Where the number of the given index stands in a request body of the kind: its bytes are little-endian (R176). -/
opaque Config.numberPlace : RequestKind → Nat → List Byte → NumberPlace

/-! ### The layouts of contents that the spec does not give (log 35) -/

/-- The layout of a reply's content after its status byte, by its content with every number 0. -/
opaque Config.replyLayout : ReplyBody → List ContentPiece
/-- The layout of a notice's content after its flags byte, by its content with every number 0. -/
opaque Config.noticeLayout : NoticeBody → List ContentPiece
/-- Which bit of a notice's flags byte carries OVERFLOW (R180). -/
opaque Config.overflowBit : Fin 8
/-- The other bits of a notice's flags byte, by its content with every number 0. -/
opaque Config.otherFlags : NoticeBody → Byte

/-! ### Timing inside a frame (log 40) -/

/-- How many more bytes of the frame in progress have begun when READY-in falls: one value for each fall on a link. -/
opaque Config.bytesBegun : Source → Nat → Nat

end Sys2Proof
end

