-- ==== Sys2Proof/Machine/Bodies.lean ====
section
/-! DEFINITION. Request kinds and body lengths (Table 11-2), the segment record (Table 11-4), and bodies of one number
(R176). Bodies of one byte are the number they name (log 5); the names, codes and presence of the other bodies are free
functions of the bytes, and so are the places of their numbers, which are little-endian (R176, log 4). -/

namespace Sys2Proof.Machine

/-- Every request kind (Table 11-2). -/
def allKinds : List RequestKind :=
  List.flatten
    [[.ident, .reset, .claim, .release, .renew, .take, .motorSet, .motorRead, .zero, .clearFault, .seg, .halt],
     [.budgetSet, .budgetRead, .chainRestart, .chainSet, .chainRead, .moduleRead, .modulePageWrite, .modulePageRead],
     [.mapSet, .mapClear, .channelRead, .watchSet, .watchClear, .reactSet, .reactClear, .reactRead],
     [.windowSet, .storeWrite, .storeRead, .clipDefine, .clipRemove, .cueSet, .cueClear, .play, .stop, .voiceGain],
     [.masterSet, .subscribe, .unsubscribe]]

/-- The request kind that a KIND byte names, if any (Table 11-2). -/
def kindOf (b : Byte) : Option RequestKind := allKinds.find? fun k => RequestKind.code k = b

/-- Table 11-2: the shortest and the longest body of a kind. -/
def bodyLength : RequestKind → Nat × Nat
  | .ident => (0, 0)
  | .reset => (0, 0)
  | .claim => (4, 4)
  | .release => (2, 2)
  | .renew => (2, 2)
  | .take => (4, 4)
  | .motorSet => (23, 23)
  | .motorRead => (1, 1)
  | .zero => (5, 5)
  | .clearFault => (1, 1)
  | .seg => (27, 27)
  | .halt => (2, 2)
  | .budgetSet => (2, 2)
  | .budgetRead => (0, 0)
  | .chainRestart => (2, 2)
  | .chainSet => (9, 9)
  | .chainRead => (1, 1)
  | .moduleRead => (2, 2)
  | .modulePageWrite => (11, 11)
  | .modulePageRead => (3, 3)
  | .mapSet => (14, 14)
  | .mapClear => (1, 1)
  | .channelRead => (1, 1)
  | .watchSet => (21, 21)
  | .watchClear => (1, 1)
  | .reactSet => (37, 37)
  | .reactClear => (1, 1)
  | .reactRead => (2, 2)
  | .windowSet => (12, 12)
  | .storeWrite => (5, 244)
  | .storeRead => (5, 5)
  | .clipDefine => (10, 10)
  | .clipRemove => (1, 1)
  | .cueSet => (15, 15)
  | .cueClear => (1, 1)
  | .play => (2, 2)
  | .stop => (2, 2)
  | .voiceGain => (3, 3)
  | .masterSet => (2, 2)
  | .subscribe => (12, 12)
  | .unsubscribe => (1, 1)

/-- R178 step 3: the body suits the kind. -/
def bodyFits (k : RequestKind) (body : List Byte) : Bool :=
  (bodyLength k).1 ≤ body.length && body.length ≤ (bodyLength k).2

/-! ### Bodies of one number, and the segment record -/

/-- The number that a body of one byte names (log 5). -/
def numberOf (body : List Byte) : Nat := leNat (body.take 1)

/-- R176: a body that is one number of several bytes, little-endian; whether it is signed is not given (log 4). -/
def numberBody (signed : Bool) (body : List Byte) : Int := if signed then leInt body else leNat body

def segKindOf (b : Byte) : Coded SegKind :=
  if b = 0 then .known .speed
  else if b = 1 then .known .move
  else if b = 2 then .known .goto
  else if b = 3 then .known .hold
  else .outside

def sideOf (b : Byte) : Coded Side := if b = 0 then .known .above else if b = 1 then .known .below else .outside

def endActionOf (b : Byte) : Coded EndAction :=
  if b = 0 then .known .coast
  else if b = 1 then .known .brake
  else if b = 2 then .known .hold
  else if b = 3 then .known .blend
  else .outside

/-- A run of a record's bytes. -/
def fieldAt (bytes : List Byte) (first count : Nat) : List Byte := (bytes.drop first).take count

/-- R176: the number of the given index in a body, little-endian; its place, its width and its sign are open (log 4). -/
def bodyInt (k : RequestKind) (i : Nat) (body : List Byte) : Int :=
  let p := Config.numberPlace k i body
  numberBody p.signed (fieldAt body p.first p.count)

/-- R176: the number of the given index in a body, in as many bytes as its field is said to have: its place alone is
open (log 4), and its bytes lie inside the body. -/
def sizedField (k : RequestKind) (i count : Nat) (body : List Byte) : List Byte :=
  fieldAt body (min (Config.numberPlace k i body).first (body.length - count)) count

/-- R176: the number of the given index in a body, little-endian and read unsigned: that it is unsigned is the model's
choice (log 45); its place and its width are open (log 4). -/
def bodyNat (k : RequestKind) (i : Nat) (body : List Byte) : Nat :=
  let p := Config.numberPlace k i body
  leNat (fieldAt body p.first p.count)

/-- One byte of a record. -/
def byteAt (bytes : List Byte) (i : Nat) : Byte := bytes.getD i 0

/-- Table 11-4: the condition of a segment record. -/
def conditionOf (r : List Byte) : RawCondition :=
  let code := byteAt r 16
  if code = 0 then .none
  else if code = 1 then
    .channel (byteAt r 17).toNat (byteAt r 18).toNat (sideOf (byteAt r 19)) (leInt (fieldAt r 20 4))
  else if code = 2 then .stall
  else .outside

/-- Table 11-4: a segment record of 26 bytes. -/
def segmentRecord (r : List Byte) : RawSegment :=
  let presence := byteAt r 1
  { kind := segKindOf (byteAt r 0)
    otherPresence := presence &&& 0xFC#8 ≠ 0
    target := if presence.getLsbD 0 then some (leInt (fieldAt r 2 4)) else none
    speed := leInt (fieldAt r 6 2)
    accel := leNat (fieldAt r 8 2)
    decel := leNat (fieldAt r 10 2)
    duration := if presence.getLsbD 1 then some (leNat (fieldAt r 12 4)) else none
    condition := conditionOf r
    endAction := endActionOf (byteAt r 24)
    tag := byteAt r 25 }

/-- Table 11-4: a SEG body: the motor byte, then the segment record. -/
def segBody (body : List Byte) : Nat × RawSegment := (numberOf body, segmentRecord (body.drop 1))

/-- Table 11-4: an action whose stored segment, if it has one, is the record given. -/
def storedAction (record : List Byte) : RawAction → RawAction
  | .segment m _ replace => .segment m (segmentRecord record) replace
  | a => a

/-- R20, Table 11-4: a REACT_SET body: the stored segment is a segment record of 26 bytes; its place in the body and the
other fields are open (log 4). -/
def reactBody (body : List Byte) : ReactFields :=
  let f := Config.reactSetBody body
  { f with action := storedAction (fieldAt body (Config.reactSegmentPlace body).val 26) f.action }

/-! ### Bodies whose names, codes and presence are open, and whose numbers are little-endian (R176, log 4) -/

/-- R160, R164. -/
def claimBody (k : RequestKind) (b : List Byte) (f : ClaimFields) : ClaimFields := { f with lease := bodyNat k 0 b }

/-- R11: the four gains are unsigned 16-bit numbers. -/
def motorSetBody (b : List Byte) : Nat × MotorSetFields :=
  let (m, f) := Config.motorSetBody b
  let num (i : Nat) (x : Option Int) : Option Int := x.map fun _ => bodyInt .motorSet i b
  let gain (i : Nat) (x : Option Int) : Option Int := x.map fun _ => leNat (sizedField .motorSet i 2 b)
  (m,
    { f with
      dutyLimit := num 0 f.dutyLimit, kp := gain 1 f.kp, kv := gain 2 f.kv, ki := gain 3 f.ki, kf := gain 4 f.kf
      stallCurrent := num 5 f.stallCurrent, stallSpeed := num 6 f.stallSpeed, stallTime := num 7 f.stallTime
      tripCurrent := num 8 f.tripCurrent })

/-- R14: ZERO carries a signed 32-bit value. -/
def zeroBody (b : List Byte) : Nat × Word := (Config.zeroBody b, BitVec.ofInt 32 (leInt (sizedField .zero 0 4 b)))

/-- R93. -/
def chainSetBody (b : List Byte) : Nat × ChainSetFields :=
  let (p, f) := Config.chainSetBody b
  let num (i : Nat) (x : Option Int) : Option Int := x.map fun _ => bodyInt .chainSet i b
  (p,
    { f with
      syncPeriod := num 0 f.syncPeriod, threshold := num 1 f.threshold, divider1 := num 2 f.divider1
      divider2 := num 3 f.divider2, divider3 := num 4 f.divider3, divider4 := num 5 f.divider4 })

/-- R106. -/
def mapSetBody (b : List Byte) : MapFields :=
  { Config.mapSetBody b with num := bodyInt .mapSet 0 b, den := bodyInt .mapSet 1 b, offset := bodyInt .mapSet 2 b }

/-- R121. -/
def watchSetBody (b : List Byte) : WatchFields :=
  { Config.watchSetBody b with
    threshold := bodyInt .watchSet 0 b, lo := bodyInt .watchSet 1 b, hi := bodyInt .watchSet 2 b
    delta := bodyInt .watchSet 3 b, hysteresis := bodyInt .watchSet 4 b }

/-- R137. -/
def windowSetBody (b : List Byte) : WindowFields :=
  { Config.windowSetBody b with base := bodyNat .windowSet 0 b, size := bodyNat .windowSet 1 b }

/-- R138. -/
def storeWriteBody (b : List Byte) : Nat × List Byte := (bodyNat .storeWrite 0 b, Config.storeWriteBody b)

/-- R139. -/
def storeReadBody (b : List Byte) : Nat × Nat := (bodyNat .storeRead 0 b, bodyNat .storeRead 1 b)

/-- R140. -/
def clipDefineBody (b : List Byte) : ClipFields :=
  { Config.clipDefineBody b with base := bodyNat .clipDefine 0 b, length := bodyNat .clipDefine 1 b }

/-- R142, Table 8-3. -/
def cueSetBody (b : List Byte) : CueFields :=
  let f := Config.cueSetBody b
  { f with
    body :=
      match f.body with
      | .clip c _ _ _ _ =>
        .clip c (bodyNat .cueSet 0 b) (bodyNat .cueSet 1 b) (bodyNat .cueSet 2 b) (bodyInt .cueSet 3 b)
      | .tone _ _ w _ => .tone (bodyInt .cueSet 4 b) (bodyInt .cueSet 5 b) w (bodyInt .cueSet 6 b)
      | .silence _ => .silence (bodyInt .cueSet 7 b)
      | .outside => .outside }

/-- R149. -/
def voiceGainBody (b : List Byte) : Nat × Int := (Config.voiceGainBody b, bodyInt .voiceGain 0 b)

/-- R169. That period, latency limit and delta are unsigned is the model's choice (log 45). -/
def subscribeBody (b : List Byte) : SubscribeFields :=
  { Config.subscribeBody b with
    period := bodyNat .subscribe 0 b, latency := bodyNat .subscribe 1 b, delta := bodyNat .subscribe 2 b }

end Sys2Proof.Machine
end

