-- ==== Sys2Proof/Machine/Motors.lean ====
section
/-! DEFINITION. The motor requests and the events of a motor port (Chapters 1 and 2). -/

namespace Sys2Proof.Machine

/-- R10, R167: an owner-only motor request: the motor's number, then its owner. -/
def motorRequest (motor : Nat) (src : Source) (act : MotorId → State → State × Reply) (s : State) : State × Reply :=
  match index 6 motor with
  | none => (s, Reply.refuse .badValue)
  | some m => ownerOnly (.motor m) src (act m) s

/-! ### MOTOR_SET, MOTOR_READ, ZERO, CLEAR_FAULT (R11 to R18) -/

/-- R3: the history refilled with one value. -/
def Motor.refill (p : Word) (mo : Motor) : Motor := { mo with history := List.replicate 16 p }

/-- R13: a polarity that differs from the one in force is taken at once, and the history refilled. -/
def Motor.takePolarity (x : Option Polarity) (mo : Motor) : Motor :=
  match x with
  | none => mo
  | some pol =>
    if pol = mo.config.polarity then mo
    else Motor.refill mo.position { mo with config := { mo.config with polarity := pol } }

/-- R11: a present polarity differs from the one in force while the motor is driven. -/
def polarityBusy (f : MotorSetFields) (mo : Motor) : Bool :=
  match f.polarity.bind Coded.get? with
  | none => false
  | some pol => pol ≠ mo.config.polarity && mo.driving

/-- R11: an accepted change set. -/
def Motor.change (f : MotorSetFields) (mo : Motor) : Motor :=
  Motor.takePolarity (f.polarity.bind Coded.get?) { mo with pendingConfig := mergePending mo.pendingConfig f }

/-- R11: MOTOR_SET at a motor. -/
def motorSet (f : MotorSetFields) (m : MotorId) (s : State) : State × Reply :=
  if !motorSetEnumsOk f then (s, Reply.refuse .badValue)
  else if polarityBusy f (s.motor m) then (s, Reply.refuse .busy)
  else
    let mo := (s.motor m).change f
    (s.setMotor m mo, Reply.ok (motorSetClamped f) (.motorConfig (adopted mo.config mo.pendingConfig)))

/-- R15, Table 1-5. -/
def motorReport (s : State) (m : MotorId) : MotorReport :=
  let mo := s.motor m
  { state := mo.state, position := mo.position, speed := mo.vmeas, current := mo.iAvg, duty := mo.uOut,
    grant := s.grant (.motor m), starved := mo.starved, depth := mo.queue.length }

/-- R15: MOTOR_READ. -/
def motorRead (motor : Nat) (s : State) : State × Reply :=
  match index 6 motor with
  | none => (s, Reply.refuse .badValue)
  | some m => (s, Reply.ok false (.motor (motorReport s m)))

/-- R14: the position set; in HOLDING the reference is shifted with it. -/
def Motor.zeroed (value : Word) (mo : Motor) : Motor :=
  Motor.refill value
    { mo with
      position := value, vmeas := 0,
      refPos := if mo.state = .holding then mo.refPos + (value - mo.position) else mo.refPos }

/-- R14: ZERO at a motor. -/
def zeroMotor (value : Word) (m : MotorId) (s : State) : State × Reply :=
  if (s.motor m).state = .running then (s, Reply.refuse .busy)
  else (s.modMotor m (Motor.zeroed value), Reply.ok false .empty)

/-- R18: CLEAR_FAULT at a motor. -/
def clearFault (m : MotorId) (s : State) : State × Reply :=
  if (s.motor m).state = .fault then (enterRest m .idle s, Reply.ok false .empty) else (s, Reply.refuse .badValue)

/-! ### SEG and HALT (R22, R37) -/

/-- R22: SEG at a motor. -/
def segMotor (r : RawSegment) (m : MotorId) (s : State) : State × Reply :=
  match checkSegment r with
  | none => (s, Reply.refuse .badValue)
  | some (seg, clamped) =>
    match segmentRefusal m seg true s with
    | some st => (s, Reply.refuse st)
    | none =>
      let s1 := s.modMotor m (Motor.append seg)
      (s1, Reply.ok clamped (.depth (s1.motor m).queue.length))

/-- R37: what HALT's reply says was discarded and ended, by the context before it; nothing in FAULT. -/
def haltDiscards (mo : Motor) : Nat × Option Byte :=
  if mo.state = .fault then (0, none) else (mo.queue.length, mo.active.map fun a => a.seg.tag)

/-- R37: HALT at a motor; the reply's state is the one after the stop action and its reactions (log 9). -/
def haltMotor (action : Coded StopAction) (m : MotorId) (s : State) : State × Reply :=
  match Coded.get? action with
  | none => (s, Reply.refuse .badValue)
  | some a =>
    let (n, tag) := haltDiscards (s.motor m)
    let s1 := afterEvents (stopAction m .halted a s)
    (s1, Reply.ok false (.halted n tag (s1.motor m).state))

/-- R11. -/
def execMotorSet (src : Source) (tag : Byte) (motor : Nat) (f : MotorSetFields) (s : State) : Out :=
  .next (serve .motorSet src tag (motorRequest motor src (motorSet f)) s)

/-- R15. -/
def execMotorRead (src : Source) (tag : Byte) (motor : Nat) (s : State) : Out :=
  .next (serve .motorRead src tag (motorRead motor) s)

/-- R14. -/
def execZero (src : Source) (tag : Byte) (motor : Nat) (value : Word) (s : State) : Out :=
  .next (serve .zero src tag (motorRequest motor src (zeroMotor value)) s)

/-- R18. -/
def execClearFault (src : Source) (tag : Byte) (motor : Nat) (s : State) : Out :=
  .next (serve .clearFault src tag (motorRequest motor src clearFault) s)

/-- R22. -/
def execSeg (src : Source) (tag : Byte) (motor : Nat) (r : RawSegment) (s : State) : Out :=
  .next (serve .seg src tag (motorRequest motor src (segMotor r)) s)

/-- R37. -/
def execHalt (src : Source) (tag : Byte) (motor : Nat) (action : Coded StopAction) (s : State) : Out :=
  .next (serve .halt src tag (motorRequest motor src (haltMotor action)) s)

/-! ### Events of a motor port -/

/-- R2: the lines of ENC A and ENC B as the part samples them. -/
def execEncoderStep (m : MotorId) (a b : Bool) (s : State) : Out :=
  let counted := s.modMotor m (Motor.count · (lineCounts s.encoder[m] ⟨a, b⟩))
  .next { counted with encoder := counted.encoder.set m ⟨a, b⟩ }

/-- R5: a control tick; `isense` is the mean bridge current of the interval it closes (R4). Its SEGMENT_END events are
taken after its last stage (log 9). -/
def execControlTick (m : MotorId) (isense : Int) (s : State) : Out := .next (afterEvents (controlTick m isense s))

/-- R16: the over-current count of a driven motor reaches 2 (log 2). -/
def execTrip (m : MotorId) (s : State) : Out :=
  .next (if (s.motor m).driving then afterEvents (takeTrip m s) else s)

/-- R27: the duration of the active segment expires, when one runs (log 2). -/
def expireDuration (m : MotorId) (s : State) : State :=
  match (s.motor m).active with
  | none => s
  | some a =>
    if durationRuns a then
      afterEvents
        (durationExpired m
          (s.modMotor m fun mo => { mo with active := some { a with elapsed := a.seg.duration.getD a.elapsed } }))
    else s

/-- R27, R32. -/
def execDurationExpiry (m : MotorId) (s : State) : Out := .next (expireDuration m s)

/-- R36: the stall time of a driven motor reaches its stall_time (log 2). -/
def execStall (m : MotorId) (s : State) : Out :=
  .next (if (s.motor m).driving then afterEvents (takeStall m s) else s)

/-- R1: a carrier period starts: every port's drive mode and duty reach its pins. -/
def execCarrierPeriod (s : State) : Out :=
  .next
    { s with
      pwm :=
        #v[driveLevels (s.motor 0), driveLevels (s.motor 1), driveLevels (s.motor 2), driveLevels (s.motor 3),
          driveLevels (s.motor 4), driveLevels (s.motor 5)] }

end Sys2Proof.Machine
end

