-- ==== Sys2Proof/Machine/Resets.lean ====
section
/-! DEFINITION. Power-on, soft reset, and the two edges of LINK_UP (R19, R59, R95, R119, R134, R157, R159, R166, R168,
R182, R184). -/

namespace Sys2Proof.Machine

/-- What no reset changes: the levels of the pins (log 8), and the commands that wait; the free values of the links go
on (log 40). -/
def State.withPins (s now : State) : State :=
  { s with
    linkUp := now.linkUp, encoder := now.encoder, pwm := now.pwm, aout := now.aout, pending := now.pending,
    program := LinkUnit.reset now.program, tablet := LinkUnit.reset now.tablet }

/-- R184: the STARTED notice on the program link, and on the tablet link while LINK_UP is high. -/
def started (cause : StartCause) (s : State) : State := s.placeBoth (.started cause s.time)

/-- R184: power-on. -/
def powerOn (s : State) : State := started .powerOn (State.reset.withPins s)

/-- R157: a clip after soft reset: held by no voice. -/
def freeClip (n : ClipId) (s : State) : State := s.setClip n ((s.clip n).map fun c => { c with inUse := 0 })

/-- R157: what soft reset keeps: the store, the windows, the directory with no clip held, and the cue table. -/
def State.withSounds (s now : State) : State :=
  allClips.foldl (fun t n => freeClip n t)
    { s with store := now.store, windows := now.windows, clips := now.clips, cues := now.cues }

/-- R183, R184: soft reset. -/
def softReset (s : State) : State := started .softReset ((State.reset.withPins s).withSounds s)

/-! ### The fall and the rise of LINK_UP -/

/-- R182: the tablet link unit stops. -/
def stopTablet (s : State) : State :=
  { s with linkUp := false, tablet := { s.tablet with rx := .hunting, tx := none, begun := 0 } }

/-- R166 step 1, R134: the watches and reactions created by TABLET are removed. -/
def dropTabletEntries (s : State) : State :=
  allEntries.foldl
    (fun t n =>
      let t1 := if (t.watch n).map Watch.creator = some .tablet then t.setWatch n none else t
      if (t1.reaction n).map Reaction.creator = some .tablet then t1.setReaction n none else t1) s

/-- R166 step 1, R168: the subscriptions of the tablet link are removed. -/
def dropTabletSubs (s : State) : State :=
  allSubs.foldl (fun t n => if (t.sub n).map Subscription.link = some .tablet then t.setSub n none else t) s

/-- R91: a MODULE_PAGE_READ from TABLET. -/
def isTabletRead (op : PageOp) : Bool :=
  match op.origin with
  | .request .tablet _ => op.bytes.isNone
  | .request .program _ => false
  | .copy => false
  | .orphan => false

/-- R91: the wire carries the operation at the head of the queue. -/
def headInFlight (c : Chain) : Bool :=
  match c.inFlight with
  | some (.getPage _ _) => true
  | some (.setPage _ _ _) => true
  | _ => false

/-- R91: the waiting reads of TABLET leave the queue; one in flight completes, its outcome replied to nobody. -/
def Chain.dropTabletReads (c : Chain) : Chain :=
  let rest (ops : List PageOp) := ops.filter fun op => !isTabletRead op
  Chain.refill
    { c with
      queue :=
        match c.queue with
        | [] => []
        | op :: ops =>
          if isTabletRead op && headInFlight c then { op with origin := .orphan } :: rest ops else rest (op :: ops) }

/-- R166 step 2: the claims of TABLET end one at a time. -/
def endTabletClaims (s : State) : State :=
  allResources.foldl
    (fun t r => if t.owner r = some .tablet then endClaim r .linkDown Claim.none t else t) s

/-- R166, R182: the fall of LINK_UP. -/
def linkUpFall (s : State) : State :=
  let s1 := dropTabletSubs (dropTabletEntries (stopTablet s))
  let s2 := allPorts.foldl (fun t p => t.modChain p Chain.dropTabletReads) s1
  let s3 := endTabletClaims s2
  { s3 with tablet := LinkUnit.reset s3.tablet }

/-- R182: the rise of LINK_UP. -/
def linkUpRise (s : State) : State :=
  let s1 := { s with linkUp := true, tablet := LinkUnit.reset s.tablet }
  s1.place .tablet (.started .linkUp s1.time)

/-- R184. -/
def execPowerOn (s : State) : Out := .next (powerOn s)

/-- R183, R184. -/
def execSoftReset (s : State) : Out := .next (softReset s)

/-- R166, R182: LINK_UP falls; no fall when it is low already (log 2). -/
def execLinkUpFall (s : State) : Out := .next (if s.linkUp then linkUpFall s else s)

/-- R182: LINK_UP rises; no rise when it is high already (log 2). -/
def execLinkUpRise (s : State) : Out := .next (if s.linkUp then s else linkUpRise s)

end Sys2Proof.Machine
end

