-- ==== Sys2Proof/Machine/SoundRequests.lean ====
section
/-! DEFINITION. The sound engine's requests on windows, store, clips, cues, voices and the master, and its output sample
event (Chapter 8). -/

namespace Sys2Proof.Machine

/-! ### Windows (R137) -/

/-- R137 step 3: the sizes a valid window may have. -/
def windowSizes : List Nat := [4096, 8192, 16384, 32768, 65536, 131072, 262144]

/-- R137 step 3. -/
def windowRangeOk (f : WindowFields) : Bool :=
  windowSizes.contains f.size && f.base % f.size = 0 && f.base + f.size ≤ storeSize

/-- R137: the definition a request gives; an invalid window keeps no rights and no lock. -/
def windowOf (f : WindowFields) : Window :=
  { valid := f.valid, base := f.base, size := f.size, programWrite := f.valid && f.programWrite,
    tabletWrite := f.valid && f.tabletWrite, playable := f.valid && f.playable, locked := f.valid && f.locked }

/-- R137: WINDOW_SET. -/
def windowSet (f : WindowFields) (s : State) : State × Reply :=
  match index 4 f.window with
  | none => (s, Reply.refuse .badValue)
  | some n =>
    if f.otherRight then (s, Reply.refuse .badValue)
    else if s.windows[n].locked then (s, Reply.refuse .denied)
    else if (f.valid && !windowRangeOk f) || (f.locked && !f.valid) then (s, Reply.refuse .badValue)
    else
      let s1 := { s with windows := s.windows.set n (windowOf f) }
      (s1, Reply.ok false (.windows s1.windows.toList))

/-! ### The clip store (R138, R139) -/

/-- R136: the range lies in the store. -/
def inStore (base n : Nat) : Bool := base + n ≤ storeSize

/-- R138 steps 1 and 2, R139: what refuses the sender the range, if anything. -/
def rangeRefusal (src : Source) (base n : Nat) (s : State) : Option Status :=
  if !inStore base n then some .badValue
  else if (offsets base n).all (mayWrite s src) then none
  else some .denied

/-- R138: the checks of a write, in order. -/
def writeRefusal (src : Source) (base : Nat) (bytes : List Byte) (s : State) : Option Status :=
  if bytes = [] ∨ 240 < bytes.length then some .badLength
  else
    match rangeRefusal src base bytes.length s with
    | some st => some st
    | none =>
      if (offsets base bytes.length).any (lockedAt s) then some .denied
      else if touchesHeldClip s base bytes.length then some .inUse
      else none

/-- R138: STORE_WRITE. -/
def storeWrite (src : Source) (base : Nat) (bytes : List Byte) (s : State) : State × Reply :=
  match writeRefusal src base bytes s with
  | some st => (s, Reply.refuse st)
  | none => ({ s with store := Store.writeRun s.store base bytes }, Reply.ok false .empty)

/-- R139: STORE_READ. -/
def storeRead (src : Source) (base count : Nat) (s : State) : State × Reply :=
  if count = 0 ∨ 240 < count then (s, Reply.refuse .badValue)
  else
    match rangeRefusal src base count s with
    | some st => (s, Reply.refuse st)
    | none => (s, Reply.ok false (.bytes (Store.readRun s.store base count)))

/-! ### The clip directory (R140, R141) -/

/-- R140 step 2. -/
def clipRangeOk (f : ClipFields) (format : ClipFormat) : Bool :=
  f.length ≠ 0 && !(format = .pcm16At16k && f.length % 2 = 1) && inStore f.base f.length

/-- R140 step 4, R141: the entry's clip is held by a voice. -/
def clipHeld (s : State) (n : ClipId) : Bool :=
  match s.clip n with
  | some c => 0 < c.inUse
  | none => false

/-- R140: CLIP_DEFINE. -/
def clipDefine (src : Source) (f : ClipFields) (s : State) : State × Reply :=
  match entryOk 48 f.entry, Coded.get? f.format with
  | true, some format =>
    if clipRangeOk f format then
      match placeEntry allClips (fun n => (s.clip n).map Clip.creator) src f.entry with
      | .refused st => (s, Reply.refuse st)
      | .at n =>
        if clipHeld s n then (s, Reply.refuse .inUse)
        else
          (s.setClip n (some { base := f.base, length := f.length, format := format, creator := src, inUse := 0 }),
            Reply.ok false (.entry n.val))
    else (s, Reply.refuse .badValue)
  | _, _ => (s, Reply.refuse .badValue)

/-- R141: CLIP_REMOVE. -/
def clipRemove (src : Source) (entry : Nat) (s : State) : State × Reply :=
  match index 48 entry with
  | none => (s, Reply.refuse .badValue)
  | some n =>
    match s.clip n with
    | none => (s, Reply.ok false .empty)
    | some c =>
      if !mayRemove src c.creator then (s, Reply.refuse .notPermitted)
      else if 0 < c.inUse then (s, Reply.refuse .inUse)
      else (s.setClip n none, Reply.ok false .empty)

/-! ### The cue table (R142, R143) -/

/-- R142: CUE_SET. -/
def cueSet (src : Source) (f : CueFields) (s : State) : State × Reply :=
  match entryOk 64 f.entry, checkCueBody f.body, checkNext f.next with
  | true, some (body, clamped), some next =>
    match placeEntry allCues (fun n => (s.cue n).map Cue.creator) src f.entry with
    | .refused st => (s, Reply.refuse st)
    | .at n =>
      (s.setCue n (some { body := body, next := next, creator := src }), Reply.ok clamped (.entry n.val))
  | _, _, _ => (s, Reply.refuse .badValue)

/-- R143: CUE_CLEAR. -/
def cueClear (src : Source) (entry : Nat) (s : State) : State × Reply :=
  match index 64 entry with
  | none => (s, Reply.refuse .badValue)
  | some n =>
    match s.cue n with
    | none => (s, Reply.ok false .empty)
    | some c =>
      if mayRemove src c.creator then (s.setCue n none, Reply.ok false .empty)
      else (s, Reply.refuse .notPermitted)

/-! ### Voices (R144, R147, R149) -/

/-- R167: an owner-only voice request: the voice's number, then its owner. -/
def voiceRequest (voice : Nat) (src : Source) (act : VoiceId → State → State × Reply) (s : State) : State × Reply :=
  match index 4 voice with
  | none => (s, Reply.refuse .badValue)
  | some v => ownerOnly (.voice v) src (act v) s

/-- R144: PLAY at a voice; the reply's state is the one after the request and its reactions (log 9). -/
def playRequest (cue : Nat) (v : VoiceId) (s : State) : State × Reply :=
  match index 64 cue with
  | none => (s, Reply.refuse .badValue)
  | some n =>
    match s.cue n with
    | none => (s, Reply.refuse .badValue)
    | some _ =>
      let s1 := playVoice react v n s
      (s1, Reply.ok false (.played (s1.voice v).state n ((s.voice v).state ≠ .idle)))

/-- R147: STOP at a voice whose owner sends it (R167, log 33); the reply's state is the one after the reactions
(log 9). -/
def stopRequest (option : Coded FadeOption) (v : VoiceId) (s : State) : State × Reply :=
  match Coded.get? option with
  | none => (s, Reply.refuse .badValue)
  | some o =>
    let s1 := stopVoice react v (o = .fade) s
    (s1, Reply.ok false (.voiceState (s1.voice v).state))

/-- R149: VOICE_GAIN at a voice. -/
def voiceGain (level : Int) (v : VoiceId) (s : State) : State × Reply :=
  let s1 := s.modVoice v fun vo => { vo with level := clampNat 0 1024 level }
  let s2 := if (s.voice v).state = .playing then retarget v s1 else s1
  let vo := s2.voice v
  (s2, Reply.ok (outOfRange 0 1024 level) (.voiceGain vo.level vo.target vo.ceiling vo.state))

/-- R155: MASTER_SET. -/
def masterSet (master : Int) (s : State) : State × Reply :=
  let n := clampNat 0 1024 master
  ({ s with master := n }, Reply.ok (outOfRange 0 1024 master) (.master n))

/-- R137. -/
def execWindowSet (src : Source) (tag : Byte) (f : WindowFields) (s : State) : Out :=
  .next (serve .windowSet src tag (windowSet f) s)

/-- R138. -/
def execStoreWrite (src : Source) (tag : Byte) (offset : Nat) (bytes : List Byte) (s : State) : Out :=
  .next (serve .storeWrite src tag (storeWrite src offset bytes) s)

/-- R139. -/
def execStoreRead (src : Source) (tag : Byte) (offset count : Nat) (s : State) : Out :=
  .next (serve .storeRead src tag (storeRead src offset count) s)

/-- R140. -/
def execClipDefine (src : Source) (tag : Byte) (f : ClipFields) (s : State) : Out :=
  .next (serve .clipDefine src tag (clipDefine src f) s)

/-- R141. -/
def execClipRemove (src : Source) (tag : Byte) (entry : Nat) (s : State) : Out :=
  .next (serve .clipRemove src tag (clipRemove src entry) s)

/-- R142. -/
def execCueSet (src : Source) (tag : Byte) (f : CueFields) (s : State) : Out :=
  .next (serve .cueSet src tag (cueSet src f) s)

/-- R143. -/
def execCueClear (src : Source) (tag : Byte) (entry : Nat) (s : State) : Out :=
  .next (serve .cueClear src tag (cueClear src entry) s)

/-- R144. -/
def execPlay (src : Source) (tag : Byte) (voice cue : Nat) (s : State) : Out :=
  .next (serve .play src tag (voiceRequest voice src (playRequest cue)) s)

/-- R147. -/
def execStop (src : Source) (tag : Byte) (voice : Nat) (option : Coded FadeOption) (s : State) : Out :=
  .next (serve .stop src tag (voiceRequest voice src (stopRequest option)) s)

/-- R149. -/
def execVoiceGain (src : Source) (tag : Byte) (voice : Nat) (level : Int) (s : State) : Out :=
  .next (serve .voiceGain src tag (voiceRequest voice src (voiceGain level)) s)

/-- R155. -/
def execMasterSet (src : Source) (tag : Byte) (master : Int) (s : State) : Out :=
  .next (serve .masterSet src tag (masterSet master) s)

/-- R154. -/
def execOutputSample (s : State) : Out := .next (outputSample react s)

end Sys2Proof.Machine
end

