-- ==== Sys2Proof/Machine/SupplyRequests.lean ====
section
/-! DEFINITION. The supply governor's requests: BUDGET_SET with the scale-down, and BUDGET_READ (Chapter 4). -/

namespace Sys2Proof.Machine

/-- R66: a grant scaled down. -/
def scaleGrant (budget sum : Nat) (x : Supply) : Supply := { x with grant := x.grant * budget / sum }

/-- R66: the ten grants scaled down, all from the same sum. -/
def Governor.scaled (g : Governor) (budget : Nat) : Governor :=
  let f := scaleGrant budget g.used
  { budget := budget,
    motors := #v[f g.motors[0], f g.motors[1], f g.motors[2], f g.motors[3], f g.motors[4], f g.motors[5]],
    voices := #v[f g.voices[0], f g.voices[1], f g.voices[2], f g.voices[3]] }

/-- R66: the affected resources: those whose grants were above 0. -/
def affected (g : Governor) : List Resource := allResources.filter fun r => 0 < (g.supply r).grant

/-- R67: a resource handed its new grant. -/
def handGrant (s : State) (r : Resource) : State :=
  match r with
  | .motor m => s.modMotor m (Motor.recompute · (s.grant r))
  | .voice v => s.modVoice v fun vo => { vo with ceiling := s.grant r * 1024 / 120 }

/-- R65 to R67: the budget set; the number of grants that were lowered. -/
def setBudget (budget : Nat) (s : State) : State × Nat :=
  let g := s.governor
  if g.used ≤ budget then ({ s with governor := { g with budget := budget } }, 0)
  else
    let rs := affected g
    (rs.foldl handGrant { s with governor := g.scaled budget }, rs.length)

/-- R65: BUDGET_SET. -/
def budgetSet (budget : Int) (s : State) : State × Reply :=
  let (s1, lowered) := setBudget (clampNat 500 8000 budget) s
  (s1,
    Reply.ok (outOfRange 500 8000 budget) (.budgetSet s1.governor.budget s1.governor.used lowered))

/-- R70, Table 4-3. -/
def budgetReport (s : State) : BudgetReport :=
  let g := s.governor
  { budget := g.budget, used := g.used, free := g.free,
    grants := allResources.map fun r => (g.supply r).grant, asks := allResources.map fun r => (g.supply r).ask,
    starved := allMotors.filter fun m => (s.motor m).starved,
    capped := allVoices.filter fun v => (g.supply (.voice v)).grant < (g.supply (.voice v)).ask }

/-- R65. -/
def execBudgetSet (src : Source) (tag : Byte) (budget : Int) (s : State) : Out :=
  .next (serve .budgetSet src tag (budgetSet budget) s)

/-- R70. -/
def execBudgetRead (src : Source) (tag : Byte) (s : State) : Out :=
  .next (serve .budgetRead src tag (fun t => (t, Reply.ok false (.budget (budgetReport t)))) s)

end Sys2Proof.Machine
end

