-- ==== Sys2Proof/Machine/Telemetry.lean ====
section
/-! DEFINITION. Subscriptions, item values, due lists, and the building of a telemetry frame (Chapter 10). -/

namespace Sys2Proof.Machine

/-! ### Item values (R173) -/

def motorStateCode : MotorState → Int
  | .idle => 0
  | .running => 1
  | .holding => 2
  | .braked => 3
  | .fault => 4

def voiceStateCode : VoiceState → Int
  | .idle => 0
  | .playing => 1
  | .fading => 2

def chainStateCode : ChainState → Int
  | .off => 0
  | .reset => 1
  | .train => 2
  | .rollcall => 3
  | .config => 4
  | .active => 5
  | .degraded => 6
  | .empty => 7
  | .fault => 8

/-- R173: a value index of a channel; out of the count it reads 0 and not fresh. An UNMAPPED channel has count 0. -/
def readChannel (now : Word) (c : Channel) (idx : Fin 8) : Reading :=
  let counted := c.state ≠ .unmapped && idx.val < c.valueCount
  { value := if counted then c.values[idx] else 0, fresh := counted && c.fresh, starved := false,
    age := min 65535 (channelAge now c) }

/-- R173, Table 10-2: an item as it stands. -/
def readItem (s : State) : Item → Reading
  | .channel ch idx => readChannel s.time (s.channel ch) idx
  | .motorPos m => ⟨(s.motor m).position.toInt, true, (s.motor m).starved, 0⟩
  | .motorSpeed m => ⟨(s.motor m).vmeas, true, (s.motor m).starved, 0⟩
  | .motorDuty m => ⟨(s.motor m).uOut, true, (s.motor m).starved, 0⟩
  | .motorState m => ⟨motorStateCode (s.motor m).state, true, (s.motor m).starved, 0⟩
  | .voiceState v => ⟨voiceStateCode (s.voice v).state, true, false, 0⟩
  | .budgetUsed => ⟨s.governor.used, true, false, 0⟩
  | .chainState p => ⟨chainStateCode (s.chain p).state, true, false, 0⟩

/-! ### Period expiries (R171) -/

/-- R171: the difference of two values of an item: wrapped for a position, exact for the others. -/
def valueChange (item : Item) (a b : Int) : Nat :=
  match item with
  | .motorPos _ => (Word.diff (BitVec.ofInt 32 a) (BitVec.ofInt 32 b)).natAbs
  | _ => (a - b).natAbs

/-- R171: the delta test. -/
def worthSending (x : Subscription) (value : Int) : Bool :=
  match x.delta, x.lastSent with
  | none, _ => true
  | some _, none => true
  | some d, some last => d ≤ valueChange x.item value last

/-- R171: the subscription at an expiry of its period timer, which starts again. -/
def expired (now : Word) (value : Int) (x : Subscription) : Subscription :=
  let x1 := { x with periodLeft := x.period }
  if x.due then { x1 with coalesced := true }
  else if worthSending x value then { x1 with due := true, dueSince := now }
  else x1

/-- R171: an expiry of a subscription's period timer. -/
def periodExpiry (n : SubId) (s : State) : State :=
  match s.sub n with
  | none => s
  | some x => s.setSub n (some (expired s.time (readItem s x.item).value x))

/-! ### Requests (R169, R170) -/

/-- R169: the latency limit clamped; 0 stays 0. -/
def clampLatency (n : Nat) : Nat := if n = 0 then 0 else clampNat 10 2000 n

/-- R169: a delta of 0 means none. -/
def clampDelta (n : Nat) : Option Nat := if n = 0 then none else some (min 2000000000 n)

def subscribeClamped (f : SubscribeFields) : Bool :=
  outOfRange 10 5000 f.period || (f.latency ≠ 0 && outOfRange 10 2000 f.latency) || 2000000000 < f.delta

/-- R169 steps 2 and 3: what refuses the item, if anything. -/
def itemRefusal (s : State) : Item → Option Status
  | .channel ch idx =>
    if (s.channel ch).state = .unmapped then some .noSource
    else if (s.channel ch).valueCount ≤ idx.val then some .badValue
    else none
  | _ => none

/-- R169: SUBSCRIBE: the new subscription takes its first expiry at once. -/
def subscribe (src : Source) (f : SubscribeFields) (s : State) : State × Reply :=
  match checkItem f.item with
  | none => (s, Reply.refuse .badValue)
  | some item =>
    if 7 < f.priority then (s, Reply.refuse .badValue)
    else
      match itemRefusal s item, allSubs.find? fun n => (s.sub n).isNone with
      | some st, _ => (s, Reply.refuse st)
      | none, none => (s, Reply.refuse .full)
      | none, some n =>
        let period := clampNat 10 5000 f.period
        let latency := clampLatency f.latency
        let x : Subscription :=
          { link := src, item := item, period := period, latency := latency, priority := f.priority,
            delta := clampDelta f.delta, lastSent := none, due := false, dueSince := 0, coalesced := false,
            periodLeft := period }
        (periodExpiry n (s.setSub n (some x)), Reply.ok (subscribeClamped f) (.subscribed n period latency))

/-- R170: UNSUBSCRIBE. -/
def unsubscribe (src : Source) (id : Nat) (s : State) : State × Reply :=
  match index 24 id with
  | none => (s, Reply.refuse .badValue)
  | some n =>
    match s.sub n with
    | none => (s, Reply.refuse .badValue)
    | some x =>
      if x.link = src then (s.setSub n none, Reply.ok false .empty) else (s, Reply.refuse .badValue)

/-! ### Due lists and frames (R172, R174) -/

/-- The due list of a link, in id order, with each subscription (R171). -/
def dueList (s : State) (link : Source) : List (SubId × Subscription) :=
  allSubs.filterMap fun n =>
    match s.sub n with
    | some x => if x.due && x.link = link then some (n, x) else none
    | none => none

/-- R181: a due subscription of the link is urgent at this moment. -/
def anyUrgent (s : State) (link : Source) : Bool := (dueList s link).any fun x => urgentAt s.time x.2

/-- R172: how long a due subscription has waited. -/
def waited (now : Word) (x : Subscription) : Nat := (now - x.dueSince).toNat

/-- R174 step 1: `a` goes strictly ahead of `b`; at equal places the lower id goes first. -/
def goesAhead (now : Word) (a b : Subscription) : Bool :=
  match urgentAt now a, urgentAt now b with
  | true, true => waited now b < waited now a
  | true, false => true
  | false, true => false
  | false, false => b.priority < a.priority

/-- A subscription put behind every one of an ordered list that it does not go ahead of. -/
def insertDue (now : Word) (x : SubId × Subscription) : List (SubId × Subscription) → List (SubId × Subscription)
  | [] => [x]
  | y :: rest => if goesAhead now x.2 y.2 then x :: y :: rest else y :: insertDue now x rest

/-- R174 step 1: the due list in order. -/
def orderDue (now : Word) (xs : List (SubId × Subscription)) : List (SubId × Subscription) :=
  xs.foldl (fun acc x => insertDue now x acc) []

/-- R174 step 3: the item of a subscription. -/
def sentItem (s : State) (x : SubId × Subscription) : SentItem :=
  ⟨x.1, readItem s x.2.item, urgentAt s.time x.2, x.2.coalesced⟩

/-- R174 step 4: a subscription once its item is in the frame. -/
def markSent (s : State) (item : SentItem) : State :=
  match s.sub item.id with
  | some x => s.setSub item.id (some { x with lastSent := some item.reading.value, due := false, coalesced := false })
  | none => s

/-- R174: a telemetry frame built from the link's due list. -/
def buildFrame (link : Source) (s : State) : State × TelemetryFrame :=
  let items := ((orderDue s.time (dueList s link)).take 12).map (sentItem s)
  (items.foldl markSent s, ⟨s.time, items⟩)

/-- R169. -/
def execSubscribe (src : Source) (tag : Byte) (f : SubscribeFields) (s : State) : Out :=
  .next (serve .subscribe src tag (subscribe src f) s)

/-- R170. -/
def execUnsubscribe (src : Source) (tag : Byte) (id : Nat) (s : State) : Out :=
  .next (serve .unsubscribe src tag (unsubscribe src id) s)

/-- R171. -/
def execPeriodExpiry (id : SubId) (s : State) : Out := .next (periodExpiry id s)

end Sys2Proof.Machine
end

