-- ==== Sys2Proof/Machine/Frames.lean ====
section
/-! DEFINITION. Frames that come in: the requests IDENT and RESET, a complete frame handed to its block, and the receive
assembler (R177, R178, R183). -/

namespace Sys2Proof.Machine

/-! ### IDENT and RESET (R183) -/

/-- R183: vendor, part and revision codes. -/
def identCodes : List Nat := [0x4A, 0x0640, 0x01]

/-- R183: the counts, in the order the rule names them. -/
def identCounts : List Nat := [6, 4, 4, 4, 16, 16, 16, 48, 64, 4, 24, 8, 16]

/-- R183: IDENT. -/
def identRequest (s : State) : State × Reply := (s, Reply.ok false (.ident identCodes identCounts))

/-- R183: RESET: the program link takes no further frame. -/
def resetRequest (s : State) : State × Reply := ({ s with resetTaken := true }, Reply.ok false .empty)

/-! ### Complete frames (R178) -/

/-- An act that answers at once, as `serveLater` takes it. -/
def now (act : State → State × Reply) (_ : Fin 8) (s : State) : State × Option Reply := ((act s).1, some (act s).2)

/-- R178 step 4: what the owning block does with a request's body. -/
def blockAct (k : RequestKind) (src : Source) (b : List Byte) : Fin 8 → State → State × Option Reply :=
  match k with
  | .ident => now identRequest
  | .reset => now resetRequest
  | .claim => now (claimRequest src (claimBody .claim b (Config.claimBody b)))
  | .release => now (releaseRequest src (Config.releaseBody b))
  | .renew => now (renewRequest src (Config.renewBody b))
  | .take => now (takeRequest (claimBody .take b (Config.takeBody b)))
  | .motorSet => now (motorRequest (motorSetBody b).1 src (motorSet (motorSetBody b).2))
  | .motorRead => now (motorRead (numberOf b))
  | .zero => now (motorRequest (zeroBody b).1 src (zeroMotor (zeroBody b).2))
  | .clearFault => now (motorRequest (numberOf b) src clearFault)
  | .seg => now (motorRequest (segBody b).1 src (segMotor (segBody b).2))
  | .halt => now (motorRequest (Config.haltBody b).1 src (haltMotor (Config.haltBody b).2))
  | .budgetSet => now (budgetSet (numberBody Config.budgetSigned b))
  | .budgetRead => now fun s => (s, Reply.ok false (.budget (budgetReport s)))
  | .chainRestart => now (chainRestart (Config.chainRestartBody b).1 (Config.chainRestartBody b).2)
  | .chainSet => now (chainSet (chainSetBody b).1 (chainSetBody b).2)
  | .chainRead => now (chainRead (numberOf b))
  | .moduleRead => now (moduleRead (Config.moduleReadBody b).1 (Config.moduleReadBody b).2)
  | .modulePageWrite =>
    let (port, pos, page, bytes) := Config.pageWriteBody b
    pageRequest src port pos page (some bytes)
  | .modulePageRead =>
    let (port, pos, page) := Config.pageReadBody b
    pageRequest src port pos page none
  | .mapSet => now (mapSet (mapSetBody b))
  | .mapClear => now (mapClear (numberOf b))
  | .channelRead => now (channelRead (numberOf b))
  | .watchSet => now (watchSet src (watchSetBody b))
  | .watchClear => now (watchClear src (numberOf b))
  | .reactSet => now (reactSet src (reactBody b))
  | .reactClear => now (reactClear src (numberOf b))
  | .reactRead => now (reactRead (Config.reactReadBody b))
  | .windowSet => now (windowSet (windowSetBody b))
  | .storeWrite => now (storeWrite src (storeWriteBody b).1 (storeWriteBody b).2)
  | .storeRead => now (storeRead src (storeReadBody b).1 (storeReadBody b).2)
  | .clipDefine => now (clipDefine src (clipDefineBody b))
  | .clipRemove => now (clipRemove src (numberOf b))
  | .cueSet => now (cueSet src (cueSetBody b))
  | .cueClear => now (cueClear src (numberOf b))
  | .play => now (voiceRequest (Config.playBody b).1 src (playRequest (Config.playBody b).2))
  | .stop => now (voiceRequest (Config.stopBody b).1 src (stopRequest (Config.stopBody b).2))
  | .voiceGain => now (voiceRequest (voiceGainBody b).1 src (voiceGain (voiceGainBody b).2))
  | .masterSet => now (masterSet (numberBody Config.masterSigned b))
  | .subscribe => now (subscribe src (subscribeBody b))
  | .unsubscribe => now (unsubscribe src (numberOf b))

/-- R178 steps 3 and 4. -/
def checkedAct (k : RequestKind) (src : Source) (b : List Byte) (slot : Fin 8) (s : State) : State × Option Reply :=
  if bodyFits k b then blockAct k src b slot s else (s, some (linkRefusal k .badLength s))

/-- R178 step 1: a reply of kind FFh, waiting in slot `i`, whose body is the status byte and the offending KIND. -/
def LinkUnit.unknown (l : LinkUnit) (i : Fin 8) (tag kind : Byte) : LinkUnit :=
  { LinkUnit.reserve l i ⟨kind, tag⟩ with
    waiting := l.waiting ++ [⟨i, 0xFF#8, tag, ⟨.unknownKind, false, .unknownKind kind⟩⟩] }

/-- R178 step 1: a frame of a KIND that is no request kind. -/
def takeUnknown (src : Source) (tag kind : Byte) (s : State) : State :=
  if s.takesFrames src then
    match (s.link src).freeSlot with
    | none => s
    | some i => s.setLink src ((s.link src).unknown i tag kind)
  else s

/-- R178: a complete frame. -/
def takeFrame (src : Source) (kind tag : Byte) (body : List Byte) (s : State) : State :=
  match kindOf kind with
  | none => takeUnknown src tag kind s
  | some k => serveLater k src tag (checkedAct k src body) s

/-! ### The receive assembler (R177) -/

/-- A link's assembler set. -/
def State.setRx (s : State) (link : Source) (rx : Assembler) : State := s.setLink link { s.link link with rx := rx }

/-- R177: the bytes of a frame whose CHECK has come; a correct one is complete. -/
def checkFrame (link : Source) (len : Byte) (got : List Byte) (check : Byte) (s : State) : State :=
  if crc8 (len :: got) = check then
    match got with
    | kind :: tag :: body => takeFrame link kind tag body s
    | _ => s
  else s

/-- R177: one byte at the assembler. -/
def assemble (link : Source) (b : Byte) (s : State) : State :=
  match (s.link link).rx with
  | .hunting => if b = 0xA5#8 then s.setRx link .awaitLen else s
  | .awaitLen => s.setRx link (if 2 ≤ b.toNat ∧ b.toNat ≤ 252 then .collecting b [] else .hunting)
  | .collecting len got =>
    if got.length < len.toNat then s.setRx link (.collecting len (got ++ [b]))
    else checkFrame link len got b (s.setRx link .hunting)

/-- R177: a byte received; on the tablet link it is ignored while LINK_UP is low. -/
def execByteReceived (link : Source) (byte : Byte) (s : State) : Out :=
  .next (if link = .tablet ∧ s.linkUp = false then s else assemble link byte s)

/-- R177: more than 5 ms pass after a byte of a frame: the partial frame is discarded. -/
def execFrameByteTimeout (link : Source) (s : State) : Out := .next (s.setRx link .hunting)

/-- R178: a frame of an unknown kind; a KIND of Table 11-2 is no such frame (log 31). -/
def execUnknownKind (src : Source) (tag kind : Byte) (s : State) : Out :=
  .next (if (kindOf kind).isSome then s else takeUnknown src tag kind s)

/-- R183. -/
def execIdent (src : Source) (tag : Byte) (s : State) : Out := .next (serve .ident src tag identRequest s)

/-- R183. -/
def execReset (src : Source) (tag : Byte) (s : State) : Out := .next (serve .reset src tag resetRequest s)

end Sys2Proof.Machine
end

