-- ==== Sys2Proof/Machine/Contents.lean ====
section
/-! DEFINITION. The numbers of reply and notice contents, in the order of their fields, and the contents with every number
0, by which a layout is chosen; a number of a content goes out little-endian, in two's complement (R176). Which pieces a
layout has is not given (log 35). Names, codes and flags are no numbers here: a byte carries each. -/

namespace Sys2Proof.Machine

/-- R176: `width` bytes of a number, little-endian, in two's complement. -/
def numberBytes (width : Nat) (x : Int) : List Byte := toLe width (BitVec.ofInt (8 * width) x).toNat

/-- The bytes of a content with the numbers given, laid out in pieces. -/
def contentBytes (layout : List ContentPiece) (numbers : List Int) : List Byte :=
  layout.flatMap fun
    | .codes bytes => bytes
    | .number i width => numberBytes width (numbers.getD i 0)

/-! ### Natural numbers and 32-bit quantities as numbers of a content -/

def ofNats (xs : List Nat) : List Int := xs.map Int.ofNat

/-- A 32-bit quantity. -/
def ofWord (x : Word) : Int := x.toNat

def zeros {α β : Type} [OfNat β 0] (xs : List α) : List β := xs.map fun _ => 0

def zeroed {α β : Type} [OfNat β 0] (x : Option α) : Option β := x.map fun _ => 0

/-! ### The numbers of the records that contents hold -/

def MotorConfig.numbers (c : MotorConfig) : List Int :=
  ofNats [c.dutyLimit, c.kp, c.kv, c.ki, c.kf, c.stallCurrent, c.stallSpeed, c.stallTime, c.tripCurrent]

def MotorConfig.codes (c : MotorConfig) : MotorConfig :=
  { c with
    dutyLimit := 0, kp := 0, kv := 0, ki := 0, kf := 0, stallCurrent := 0, stallSpeed := 0, stallTime := 0
    tripCurrent := 0 }

def MotorReport.numbers (r : MotorReport) : List Int :=
  [ofWord r.position, r.speed, r.current, r.duty, r.grant, r.depth]

def MotorReport.codes (r : MotorReport) : MotorReport :=
  { r with position := 0, speed := 0, current := 0, duty := 0, grant := 0, depth := 0 }

def BudgetReport.numbers (r : BudgetReport) : List Int := ofNats ([r.budget, r.used, r.free] ++ r.grants ++ r.asks)

def BudgetReport.codes (r : BudgetReport) : BudgetReport :=
  { r with budget := 0, used := 0, free := 0, grants := zeros r.grants, asks := zeros r.asks }

def ChainSettings.numbers (c : ChainSettings) : List Int := ofNats ([c.syncPeriod, c.threshold] ++ c.dividers)

def ChainSettings.codes (c : ChainSettings) : ChainSettings :=
  { c with syncPeriod := 0, threshold := 0, dividers := zeros c.dividers }

def ChainReport.numbers (r : ChainReport) : List Int :=
  ofNats [r.count, r.syncPeriod, r.threshold, r.faultCount, r.queued]

def ChainReport.codes (r : ChainReport) : ChainReport :=
  { r with count := 0, syncPeriod := 0, threshold := 0, faultCount := 0, queued := 0 }

def Sample.numbers (x : Sample) : List Int := x.values.map BitVec.toInt ++ [ofWord x.stamp]

def Sample.codes (x : Sample) : Sample := ⟨zeros x.values, 0⟩

def ModuleRecord.numbers (r : ModuleRecord) : List Int :=
  ofNats [r.valueCount, r.settleTime, r.divider, r.countdown, r.settleLeft, r.bucket, r.misses] ++
    (r.last.map Sample.numbers).getD []

def ModuleRecord.codes (r : ModuleRecord) : ModuleRecord :=
  { r with
    valueCount := 0, settleTime := 0, divider := 0, countdown := 0, settleLeft := 0, bucket := 0, misses := 0
    last := r.last.map Sample.codes }

def Channel.numbers (c : Channel) : List Int :=
  c.num :: c.den :: c.offset :: ofWord c.stamp :: ofWord (c.staleAt.getD 0) :: Int.ofNat c.valueCount ::
    c.values.toList

def Channel.codes (c : Channel) : Channel :=
  { c with
    valueCount := 0, num := 0, den := 0, offset := 0, stamp := 0, staleAt := zeroed c.staleAt
    values := Vector.replicate 8 0 }

def ChannelReport.numbers (r : ChannelReport) : List Int :=
  Channel.numbers r.channel ++ ofNats [r.age, r.ahead.getD 0, (r.progress.map Prod.fst).getD 0]

def ChannelReport.codes (r : ChannelReport) : ChannelReport :=
  { channel := Channel.codes r.channel, age := 0, ahead := zeroed r.ahead
    progress := r.progress.map fun x => (0, x.2) }

def WatchTest.numbers : WatchTest → List Int
  | .above x => [x]
  | .below x => [x]
  | .outside lo hi => [lo, hi]
  | .inside lo hi => [lo, hi]
  | .change d => [d]

def WatchTest.codes : WatchTest → WatchTest
  | .above _ => .above 0
  | .below _ => .below 0
  | .outside _ _ => .outside 0 0
  | .inside _ _ => .inside 0 0
  | .change _ => .change 0

def Watch.numbers (w : Watch) : List Int :=
  WatchTest.numbers w.test ++ [w.hysteresis, w.reference.getD 0, w.fires]

def Watch.codes (w : Watch) : Watch :=
  { w with test := WatchTest.codes w.test, hysteresis := 0, reference := zeroed w.reference, fires := 0 }

def Condition.numbers : Condition → List Int
  | .none => []
  | .channel _ _ _ x => [x]
  | .stall => []

def Condition.codes : Condition → Condition
  | .none => .none
  | .channel ch i side _ => .channel ch i side 0
  | .stall => .stall

def Segment.numbers (g : Segment) : List Int :=
  [g.target.getD 0, g.speed, g.accel, g.decel, g.duration.getD 0] ++ Condition.numbers g.condition

def Segment.codes (g : Segment) : Segment :=
  { g with
    target := zeroed g.target, speed := 0, accel := 0, decel := 0, duration := zeroed g.duration
    condition := Condition.codes g.condition }

def Action.numbers : Action → List Int
  | .halt _ _ => []
  | .segment _ g _ => Segment.numbers g
  | .play _ _ => []
  | .stop _ _ => []
  | .notify _ => []

def Action.codes : Action → Action
  | .halt m a => .halt m a
  | .segment m g replace => .segment m (Segment.codes g) replace
  | .play v c => .play v c
  | .stop v fade => .stop v fade
  | .notify code => .notify code

def Reaction.numbers (r : Reaction) : List Int := Action.numbers r.action ++ ofNats [r.fires, r.skips]

def Reaction.codes (r : Reaction) : Reaction := { r with action := Action.codes r.action, fires := 0, skips := 0 }

/-! ### Replies and notices -/

/-- The numbers of a reply's content. -/
def ReplyBody.numbers : ReplyBody → List Int
  | .empty => []
  | .unknownKind _ => []
  | .ident codes counts => ofNats (codes ++ counts)
  | .claims table _ => ofNats (table.map fun x => x.2.getD 0)
  | .motorConfig c => MotorConfig.numbers c
  | .motor r => MotorReport.numbers r
  | .depth n => [n]
  | .halted discarded _ _ => [discarded]
  | .budgetSet budget used lowered => ofNats [budget, used, lowered]
  | .budget r => BudgetReport.numbers r
  | .chainSettings c => ChainSettings.numbers c
  | .chain r => ChainReport.numbers r
  | .module _ r _ => ModuleRecord.numbers r
  | .page _ _ => []
  | .mapped _ _ count => [count]
  | .channel r => ChannelReport.numbers r
  | .entry n => [n]
  | .fires n => [n]
  | .counts fires skips => ofNats [fires, skips]
  | .watch w => (w.map Watch.numbers).getD []
  | .reaction r => (r.map Reaction.numbers).getD []
  | .windows ws => ofNats (ws.flatMap fun w => [w.base, w.size])
  | .bytes _ => []
  | .played _ _ _ => []
  | .voiceState _ => []
  | .voiceGain level target ceiling _ => ofNats [level, target, ceiling]
  | .master n => [n]
  | .subscribed _ period latency => ofNats [period, latency]

/-- A reply's content with every number 0. -/
def ReplyBody.codes : ReplyBody → ReplyBody
  | .empty => .empty
  | .unknownKind kind => .unknownKind kind
  | .ident codes counts => .ident (zeros codes) (zeros counts)
  | .claims table listed => .claims (table.map fun x => (x.1, zeroed x.2)) listed
  | .motorConfig c => .motorConfig (MotorConfig.codes c)
  | .motor r => .motor (MotorReport.codes r)
  | .depth _ => .depth 0
  | .halted _ tag state => .halted 0 tag state
  | .budgetSet _ _ _ => .budgetSet 0 0 0
  | .budget r => .budget (BudgetReport.codes r)
  | .chainSettings c => .chainSettings (ChainSettings.codes c)
  | .chain r => .chain (ChainReport.codes r)
  | .module pos r channel => .module pos (ModuleRecord.codes r) channel
  | .page page bytes => .page page bytes
  | .mapped state serving _ => .mapped state serving 0
  | .channel r => .channel (ChannelReport.codes r)
  | .entry _ => .entry 0
  | .fires _ => .fires 0
  | .counts _ _ => .counts 0 0
  | .watch w => .watch (w.map Watch.codes)
  | .reaction r => .reaction (r.map Reaction.codes)
  | .windows ws => .windows (ws.map fun w => { w with base := 0, size := 0 })
  | .bytes bs => .bytes bs
  | .played state cue replaced => .played state cue replaced
  | .voiceState state => .voiceState state
  | .voiceGain _ _ _ state => .voiceGain 0 0 0 state
  | .master _ => .master 0
  | .subscribed id _ _ => .subscribed id 0 0

/-- The numbers of a notice's content. -/
def NoticeBody.numbers : NoticeBody → List Int
  | .started _ time => [ofWord time]
  | .segmentEnd _ _ _ _ pos discarded time => [ofWord pos, discarded, ofWord time]
  | .motorFault _ _ pos iAvg time => [ofWord pos, iAvg, ofWord time]
  | .chainState _ _ _ _ count _ _ _ _ _ time => [count, ofWord time]
  | .moduleState _ _ _ _ _ _ _ _ bucket misses time => [bucket, misses, ofWord time]
  | .channelState _ _ _ _ _ _ _ time => [ofWord time]
  | .watchFired _ _ _ test _ value _ fires stamp time =>
    WatchTest.numbers test ++ [value, fires, ofWord stamp, ofWord time]
  | .reaction _ _ _ depth fires skips time => ofNats [depth, fires, skips] ++ [ofWord time]
  | .voiceEnd _ _ _ _ time => [ofWord time]
  | .claimEnd _ _ _ _ time => [ofWord time]

/-- A notice's content with every number 0. -/
def NoticeBody.codes : NoticeBody → NoticeBody
  | .started cause _ => .started cause 0
  | .segmentEnd m tag reason blended _ _ _ => .segmentEnd m tag reason blended 0 0 0
  | .motorFault m cause _ _ _ => .motorFault m cause 0 0 0
  | .chainState p left entered cause _ overlong failedA failedB selected sticky _ =>
    .chainState p left entered cause 0 overlong failedA failedB selected sticky 0
  | .moduleState p pos kind model left entered cause failing _ _ _ =>
    .moduleState p pos kind model left entered cause failing 0 0 0
  | .channelState ch left entered cause slot serving poor _ => .channelState ch left entered cause slot serving poor 0
  | .watchFired n ch index test cause _ state _ _ _ => .watchFired n ch index (WatchTest.codes test) cause 0 state 0 0 0
  | .reaction n outcome event _ _ _ _ => .reaction n outcome event 0 0 0 0
  | .voiceEnd v reason cue clip _ => .voiceEnd v reason cue clip 0
  | .claimEnd r reason lost new _ => .claimEnd r reason lost new 0

end Sys2Proof.Machine
end

