-- ==== Sys2Proof/Machine/Transmitter.lean ====
section
/-! DEFINITION. Frames that go out: the bytes of a frame, the choice at a frame start, READY-in with the pause of a
frame, and the end of a frame (R176, R179, R181, R183, Tables 11-1, 11-3, 11-5). -/

namespace Sys2Proof.Machine

/-! ### Bytes of a frame (Tables 11-1, 11-2, 11-3, 11-5) -/

/-- Table 11-3: the code of a status. -/
def statusCode : Status → Byte
  | .ok => 0x00
  | .accepted => 0x01
  | .unknownKind => 0x02
  | .badLength => 0x03
  | .badValue => 0x04
  | .notPermitted => 0x05
  | .notOwner => 0x06
  | .held => 0x07
  | .full => 0x08
  | .busy => 0x09
  | .faulted => 0x0A
  | .denied => 0x0B
  | .inUse => 0x0C
  | .noSource => 0x0D
  | .failed => 0x0E
  | .aborted => 0x0F

/-- Table 11-3: the status byte, with CLAMPED in bit 7. -/
def statusByte (st : Status) (clamped : Bool) : Byte := if clamped then statusCode st ||| 0x80#8 else statusCode st

/-- Section 11.3: the kind of a notice. -/
def noticeKind : NoticeBody → Byte
  | .started _ _ => 0xE0
  | .segmentEnd _ _ _ _ _ _ _ => 0xE1
  | .motorFault _ _ _ _ _ => 0xE2
  | .chainState _ _ _ _ _ _ _ _ _ _ _ => 0xE3
  | .moduleState _ _ _ _ _ _ _ _ _ _ _ => 0xE4
  | .channelState _ _ _ _ _ _ _ _ => 0xE5
  | .watchFired _ _ _ _ _ _ _ _ _ _ => 0xE6
  | .reaction _ _ _ _ _ _ _ => 0xE7
  | .voiceEnd _ _ _ _ _ => 0xE8
  | .claimEnd _ _ _ _ _ => 0xE9

/-- Table 11-5: the flags byte of a telemetry item. -/
def itemFlags (x : SentItem) : Byte :=
  BitVec.ofNat 8
    ((if x.reading.fresh then 1 else 0) + (if x.coalesced then 2 else 0) + (if x.urgent then 4 else 0) +
      (if x.reading.starved then 8 else 0))

/-- Table 11-5: a telemetry item. -/
def itemBytes (x : SentItem) : List Byte :=
  BitVec.ofNat 8 x.id.val :: itemFlags x :: (toLe 4 (BitVec.ofInt 32 x.reading.value).toNat ++ toLe 2 x.reading.age)

/-- The content of a reply after its status byte; FFh carries the offending KIND, and a refusal carries nothing (R178,
R179). The layouts of the other contents are not given (log 35), but that their numbers are little-endian. -/
def replyContent : ReplyBody → List Byte
  | .empty => []
  | .unknownKind kind => [kind]
  | other => contentBytes (Config.replyLayout (ReplyBody.codes other)) (ReplyBody.numbers other)

/-- The content of a notice after its flags byte: its layout is not given (log 35), but that its numbers are
little-endian. -/
def noticeContent (b : NoticeBody) : List Byte :=
  contentBytes (Config.noticeLayout (NoticeBody.codes b)) (NoticeBody.numbers b)

/-- R180: the flags byte of a notice: one bit carries OVERFLOW; which, and what the others carry, is open (log 35). -/
def noticeFlags (n : Notice) : Byte :=
  let bit := 1#8 <<< Config.overflowBit.val
  let rest := Config.otherFlags (NoticeBody.codes n.body) &&& ~~~bit
  if n.overflow then rest ||| bit else rest

/-- The KIND, the TAG and the BODY of a frame (Table 11-1). -/
def framePayload : TxFrame → Byte × Byte × List Byte
  | .reply r => (r.kind, r.tag, statusByte r.reply.status r.reply.clamped :: replyContent r.reply.body)
  | .notice n => (noticeKind n.body, 0, noticeFlags n :: noticeContent n.body)
  | .telemetry f =>
    (0xF0#8, 0, toLe 4 f.stamp.toNat ++ (BitVec.ofNat 8 f.items.length :: f.items.flatMap itemBytes))

/-- Table 11-1: the bytes of a frame on the line: SYNC, LEN, KIND, TAG, BODY, CHECK. -/
def frameBytes (f : TxFrame) : List Byte :=
  let (kind, tag, body) := framePayload f
  let checked := BitVec.ofNat 8 (body.length + 2) :: kind :: tag :: body
  0xA5#8 :: (checked ++ [crc8 checked])

/-! ### The transmitter (R176, R181) -/

/-- R176, R182: the link sends frames. -/
def State.sendsFrames (s : State) : Source → Bool
  | .program => true
  | .tablet => s.linkUp

/-- R176: the transmitter may start a byte, the first of a frame or the next of one in progress: only while READY-in is
high. -/
def State.startsBytes (s : State) (link : Source) : Bool := s.sendsFrames link && (s.link link).readyIn

/-- R176: the frame in progress is paused between bytes: READY-in is low, and a byte of the frame has not begun. -/
def LinkUnit.paused (l : LinkUnit) : Bool :=
  !l.readyIn &&
    match l.tx with
    | none => false
    | some f => decide (l.begun < (frameBytes f).length)

/-- R176, R181: a frame starts with its first byte. -/
def LinkUnit.send (l : LinkUnit) (f : TxFrame) : LinkUnit := { l with tx := some f, begun := 1 }

/-- R181, R174: a telemetry frame built and sent. -/
def sendTelemetry (link : Source) (s : State) : State :=
  let (s1, frame) := buildFrame link s
  s1.setLink link ((s1.link link).send (.telemetry frame))

/-- R181: what the transmitter chooses at a frame start; nothing when no frame exists. A reply that waits before the
first frame after a reset goes ahead of STARTED (R184) too: the model's reading (log 46). -/
def chooseFrame (link : Source) (s : State) : State :=
  let l := s.link link
  match l.waiting, l.notices with
  | r :: rest, _ => s.setLink link (LinkUnit.send { l with waiting := rest } (.reply r))
  | [], notices =>
    if anyUrgent s link then sendTelemetry link s
    else
      match notices with
      | n :: rest => s.setLink link (LinkUnit.send { l with notices := rest } (.notice n))
      | [] => if dueList s link = [] then s else sendTelemetry link s

/-- R181: a frame start comes when the transmitter is idle, READY-in is high, and a frame exists. -/
def execFrameStart (link : Source) (s : State) : Out :=
  .next
    (if s.startsBytes link ∧ (s.link link).tx = none then chooseFrame link s else s)

/-- R183: the reply whose sending is followed by the soft reset: the OK to a RESET that was taken. -/
def endsInReset (link : Source) (f : TxFrame) : Bool :=
  match link, f with
  | .program, .reply r => r.kind = 0x82#8 && r.reply.status = .ok
  | _, _ => false

/-- R179: the transmitter is idle again, and a reply's slot is free. -/
def LinkUnit.sent (l : LinkUnit) : LinkUnit :=
  match l.tx with
  | none => l
  | some (.reply r) => { LinkUnit.free l r.slot with tx := none, begun := 0 }
  | some (.notice _) => { l with tx := none, begun := 0 }
  | some (.telemetry _) => { l with tx := none, begun := 0 }

/-- R179, R183: the last byte of a frame has been sent. -/
def frameSent (link : Source) (s : State) : State :=
  match (s.link link).tx with
  | none => s
  | some f =>
    let s1 := s.setLink link (s.link link).sent
    if endsInReset link f then softReset s1 else s1

/-- R176, R179: a paused frame does not end: its next byte starts when READY-in rises. -/
def execFrameSent (link : Source) (s : State) : Out :=
  .next (if (s.link link).paused then s else frameSent link s)

/-- R176: READY-in falls inside a frame: how many of its bytes have begun is a free value, at least those begun before
and at most the whole frame (log 40). -/
def LinkUnit.pause (link : Source) (f : TxFrame) (l : LinkUnit) : LinkUnit :=
  { l with
    readyIn := false, begun := min (frameBytes f).length (l.begun + Config.bytesBegun link l.draws)
    draws := l.draws + 1 }

/-- R176: READY-in changes: its fall inside a frame pauses the frame between bytes, and its rise lets the frame resume
from the next byte, with those that have begun kept. -/
def execReadyInChange (link : Source) (high : Bool) (s : State) : Out :=
  let l := s.link link
  .next
    (match high, l.readyIn, l.tx with
     | false, true, some f => s.setLink link (LinkUnit.pause link f l)
     | _, _, _ => s.setLink link { l with readyIn := high })

end Sys2Proof.Machine
end

