-- ==== Sys2Proof/Machine/Dispatch.lean ====
section
/-! DEFINITION. One arm per command: the command's meaning. -/

namespace Sys2Proof.Machine

def exec (i : Instr) (s : State) : Host.Outcome State Fault Refusal :=
  match i with
  | .powerOn => Sys2Proof.Machine.execPowerOn s
  | .softReset => Sys2Proof.Machine.execSoftReset s
  | .linkUpFall => Sys2Proof.Machine.execLinkUpFall s
  | .linkUpRise => Sys2Proof.Machine.execLinkUpRise s
  | .readyInChange link high => Sys2Proof.Machine.execReadyInChange link high s
  | .frameByteTimeout link => Sys2Proof.Machine.execFrameByteTimeout link s
  | .unknownKind src tag kind => Sys2Proof.Machine.execUnknownKind src tag kind s
  | .frameStart link => Sys2Proof.Machine.execFrameStart link s
  | .frameSent link => Sys2Proof.Machine.execFrameSent link s
  | .ident src tag => Sys2Proof.Machine.execIdent src tag s
  | .reset src tag => Sys2Proof.Machine.execReset src tag s
  | .claim src tag f => Sys2Proof.Machine.execClaim src tag f s
  | .release src tag set => Sys2Proof.Machine.execRelease src tag set s
  | .renew src tag set => Sys2Proof.Machine.execRenew src tag set s
  | .take src tag f => Sys2Proof.Machine.execTake src tag f s
  | .leaseExpiry r => Sys2Proof.Machine.execLeaseExpiry r s
  | .motorSet src tag motor f => Sys2Proof.Machine.execMotorSet src tag motor f s
  | .motorRead src tag motor => Sys2Proof.Machine.execMotorRead src tag motor s
  | .zero src tag motor value => Sys2Proof.Machine.execZero src tag motor value s
  | .clearFault src tag motor => Sys2Proof.Machine.execClearFault src tag motor s
  | .seg src tag motor r => Sys2Proof.Machine.execSeg src tag motor r s
  | .halt src tag motor action => Sys2Proof.Machine.execHalt src tag motor action s
  | .encoderStep m a b => Sys2Proof.Machine.execEncoderStep m a b s
  | .controlTick m isense => Sys2Proof.Machine.execControlTick m isense s
  | .trip m => Sys2Proof.Machine.execTrip m s
  | .durationExpiry m => Sys2Proof.Machine.execDurationExpiry m s
  | .stall m => Sys2Proof.Machine.execStall m s
  | .budgetSet src tag budget => Sys2Proof.Machine.execBudgetSet src tag budget s
  | .budgetRead src tag => Sys2Proof.Machine.execBudgetRead src tag s
  | .chainRestart src tag port option => Sys2Proof.Machine.execChainRestart src tag port option s
  | .chainSet src tag port f => Sys2Proof.Machine.execChainSet src tag port f s
  | .chainRead src tag port => Sys2Proof.Machine.execChainRead src tag port s
  | .moduleRead src tag port pos => Sys2Proof.Machine.execModuleRead src tag port pos s
  | .modulePageWrite src tag port pos page bytes => Sys2Proof.Machine.execModulePageWrite src tag port pos page bytes s
  | .modulePageRead src tag port pos page => Sys2Proof.Machine.execModulePageRead src tag port pos page s
  | .resetRestExpiry p => Sys2Proof.Machine.execResetRestExpiry p s
  | .trainRetryTimer p => Sys2Proof.Machine.execTrainRetryTimer p s
  | .emptyProbeTimer p => Sys2Proof.Machine.execEmptyProbeTimer p s
  | .faultRetryTimer p => Sys2Proof.Machine.execFaultRetryTimer p s
  | .syncTimerExpiry p => Sys2Proof.Machine.execSyncTimerExpiry p s
  | .callSent p => Sys2Proof.Machine.execCallSent p s
  | .transactionEnd p retA retB => Sys2Proof.Machine.execTransactionEnd p retA retB s
  | .answerTimeout p retA retB => Sys2Proof.Machine.execAnswerTimeout p retA retB s
  | .missesAbsent p pos => Sys2Proof.Machine.execMissesAbsent p pos s
  | .settleExpiry p pos => Sys2Proof.Machine.execSettleExpiry p pos s
  | .staleDeadline ch => Sys2Proof.Machine.execStaleDeadline ch s
  | .mapSet src tag f => Sys2Proof.Machine.execMapSet src tag f s
  | .mapClear src tag channel => Sys2Proof.Machine.execMapClear src tag channel s
  | .channelRead src tag channel => Sys2Proof.Machine.execChannelRead src tag channel s
  | .watchSet src tag f => Sys2Proof.Machine.execWatchSet src tag f s
  | .watchClear src tag entry => Sys2Proof.Machine.execWatchClear src tag entry s
  | .reactSet src tag f => Sys2Proof.Machine.execReactSet src tag f s
  | .reactClear src tag entry => Sys2Proof.Machine.execReactClear src tag entry s
  | .reactRead src tag target => Sys2Proof.Machine.execReactRead src tag target s
  | .windowSet src tag f => Sys2Proof.Machine.execWindowSet src tag f s
  | .storeWrite src tag offset bytes => Sys2Proof.Machine.execStoreWrite src tag offset bytes s
  | .storeRead src tag offset count => Sys2Proof.Machine.execStoreRead src tag offset count s
  | .clipDefine src tag f => Sys2Proof.Machine.execClipDefine src tag f s
  | .clipRemove src tag entry => Sys2Proof.Machine.execClipRemove src tag entry s
  | .cueSet src tag f => Sys2Proof.Machine.execCueSet src tag f s
  | .cueClear src tag entry => Sys2Proof.Machine.execCueClear src tag entry s
  | .play src tag voice cue => Sys2Proof.Machine.execPlay src tag voice cue s
  | .stop src tag voice option => Sys2Proof.Machine.execStop src tag voice option s
  | .voiceGain src tag voice level => Sys2Proof.Machine.execVoiceGain src tag voice level s
  | .masterSet src tag master => Sys2Proof.Machine.execMasterSet src tag master s
  | .outputSample => Sys2Proof.Machine.execOutputSample s
  | .subscribe src tag f => Sys2Proof.Machine.execSubscribe src tag f s
  | .unsubscribe src tag id => Sys2Proof.Machine.execUnsubscribe src tag id s
  | .periodExpiry id => Sys2Proof.Machine.execPeriodExpiry id s
  | .byteReceived link byte => Sys2Proof.Machine.execByteReceived link byte s
  | .carrierPeriod => Sys2Proof.Machine.execCarrierPeriod s

end Sys2Proof.Machine
end

