-- ==== Sys2Proof/Safety.lean ====
section
/-! DEFINITION. The terms that the obligations speak in: a request taken and answered, what stays untouched by the work
of one block, and the invariants that every step keeps. -/

namespace Sys2Proof.Safety

open Sys2Proof.Machine

/-! ### Requests (R178, R179) -/

/-- R176, R178: a complete frame on the link is taken, and reserves slot `i`. -/
def Accepts (s : State) (src : Source) (i : Fin 8) : Prop :=
  s.takesFrames src = true ∧ (s.link src).freeSlot = some i

/-- R178: the state with slot `i` of the link reserved for a request of kind code `kind`. -/
def reserved (s : State) (src : Source) (i : Fin 8) (kind tag : Byte) : State :=
  s.setLink src { s.link src with slots := (s.link src).slots.set i (some ⟨kind, tag⟩) }

/-- R179: the state with a request of kind code `kind` taken in slot `i` and its reply waiting, and nothing else
changed. -/
def answered (s : State) (src : Source) (i : Fin 8) (kind tag : Byte) (r : Reply) : State :=
  s.setLink src
    { s.link src with
      slots := (s.link src).slots.set i (some ⟨kind, tag⟩)
      waiting := (s.link src).waiting ++ [⟨i, kind + 0x80#8, tag, r⟩] }

/-- The link, the TAG and the kind of a request row; events have none. -/
def requestOf : Instr → Option (Source × Byte × RequestKind)
  | .ident src tag => some (src, tag, .ident)
  | .reset src tag => some (src, tag, .reset)
  | .claim src tag _ => some (src, tag, .claim)
  | .release src tag _ => some (src, tag, .release)
  | .renew src tag _ => some (src, tag, .renew)
  | .take src tag _ => some (src, tag, .take)
  | .motorSet src tag _ _ => some (src, tag, .motorSet)
  | .motorRead src tag _ => some (src, tag, .motorRead)
  | .zero src tag _ _ => some (src, tag, .zero)
  | .clearFault src tag _ => some (src, tag, .clearFault)
  | .seg src tag _ _ => some (src, tag, .seg)
  | .halt src tag _ _ => some (src, tag, .halt)
  | .budgetSet src tag _ => some (src, tag, .budgetSet)
  | .budgetRead src tag => some (src, tag, .budgetRead)
  | .chainRestart src tag _ _ => some (src, tag, .chainRestart)
  | .chainSet src tag _ _ => some (src, tag, .chainSet)
  | .chainRead src tag _ => some (src, tag, .chainRead)
  | .moduleRead src tag _ _ => some (src, tag, .moduleRead)
  | .modulePageWrite src tag _ _ _ _ => some (src, tag, .modulePageWrite)
  | .modulePageRead src tag _ _ _ => some (src, tag, .modulePageRead)
  | .mapSet src tag _ => some (src, tag, .mapSet)
  | .mapClear src tag _ => some (src, tag, .mapClear)
  | .channelRead src tag _ => some (src, tag, .channelRead)
  | .watchSet src tag _ => some (src, tag, .watchSet)
  | .watchClear src tag _ => some (src, tag, .watchClear)
  | .reactSet src tag _ => some (src, tag, .reactSet)
  | .reactClear src tag _ => some (src, tag, .reactClear)
  | .reactRead src tag _ => some (src, tag, .reactRead)
  | .windowSet src tag _ => some (src, tag, .windowSet)
  | .storeWrite src tag _ _ => some (src, tag, .storeWrite)
  | .storeRead src tag _ _ => some (src, tag, .storeRead)
  | .clipDefine src tag _ => some (src, tag, .clipDefine)
  | .clipRemove src tag _ => some (src, tag, .clipRemove)
  | .cueSet src tag _ => some (src, tag, .cueSet)
  | .cueClear src tag _ => some (src, tag, .cueClear)
  | .play src tag _ _ => some (src, tag, .play)
  | .stop src tag _ _ => some (src, tag, .stop)
  | .voiceGain src tag _ _ => some (src, tag, .voiceGain)
  | .masterSet src tag _ => some (src, tag, .masterSet)
  | .subscribe src tag _ => some (src, tag, .subscribe)
  | .unsubscribe src tag _ => some (src, tag, .unsubscribe)
  | _ => none

/-! ### Frames and telemetry -/

/-- Table 11-1: the bytes of a frame that carries KIND, TAG and BODY. -/
def frameOf (kind tag : Byte) (body : List Byte) : List Byte :=
  let checked := BitVec.ofNat 8 (body.length + 2) :: kind :: tag :: body
  0xA5#8 :: (checked ++ [crc8 checked])

/-- The bytes of a run received one after the other on a link. -/
def feed (link : Source) (s : State) (bytes : List Byte) : Out :=
  bytes.foldl
    (fun o b => match o with
      | .next t => exec (.byteReceived link b) t
      | .fault r => .fault r
      | .refused r => .refused r) (.next s)

/-- R169 step 1, Table 10-2: an item as a SUBSCRIBE names it; a request that names none of these names no item. -/
def namedItem : Item → RawItem
  | .channel ch idx => .channel ch.val idx.val
  | .motorPos m => .motorPos m.val
  | .motorSpeed m => .motorSpeed m.val
  | .motorDuty m => .motorDuty m.val
  | .motorState m => .motorState m.val
  | .voiceState v => .voiceState v.val
  | .budgetUsed => .budgetUsed
  | .chainState p => .chainState p.val

/-- R171: the subscription of a link is due. -/
def Due (s : State) (link : Source) (n : SubId) (x : Subscription) : Prop :=
  s.sub n = some x ∧ x.link = link ∧ x.due = true

/-- R172: a due subscription has waited for its latency limit, which is not 0. -/
def Urgent (now : Word) (x : Subscription) : Prop := x.latency ≠ 0 ∧ x.latency ≤ (now - x.dueSince).toNat

/-- R181: a due subscription of the link is urgent. -/
def UrgentDue (s : State) (link : Source) : Prop := ∃ n x, Due s link n x ∧ Urgent s.time x

/-- R176, R182: the link sends frames. -/
def Sends (s : State) (link : Source) : Prop := link = .tablet → s.linkUp = true

/-- R181: a frame start can come. -/
def CanStart (s : State) (link : Source) : Prop :=
  Sends s link ∧ (s.link link).tx = none ∧ (s.link link).readyIn = true

/-! ### Transactions (R71 to R73) -/

/-- R71: the answer is the one that the call asks for, and within range. -/
def Fits (c : Chain) (call : Call) (x : Answer) : Prop :=
  match call, x with
  | .train, .training => True
  | .rollcall k, .rollcall pos _ _ n settle _ => pos = k.val + 1 ∧ 1 ≤ n ∧ n ≤ 8 ∧ settle ≤ 500
  | .setPage k page _, .pageAck pos n => pos = k.val + 1 ∧ n = pageNumber page
  | .getPage k page, .pageAnswer pos n _ => pos = k.val + 1 ∧ n = pageNumber page
  | .poll k, .sample pos _ values _ =>
    pos = k.val + 1 ∧ values.length = ((c.modules[k.val]?).map ModuleRecord.valueCount).getD 0
  | _, _ => False

/-- R73: what has come on a wire; a wire marked failed is not listened to. -/
def copyOn (c : Chain) (a b : WireAnswer) : Wire → WireAnswer
  | .retA => if c.failedA then .silent else a
  | .retB => if c.failedB then .silent else b

/-- R71: the copy on a wire is good, and answers `x`. -/
def GoodCopy (c : Chain) (call : Call) (a b : WireAnswer) (w : Wire) (x : Answer) : Prop :=
  copyOn c a b w = .complete true x ∧ Fits c call x

/-- R72: the result of the call in flight on chain `p`, with the copies `a` and `b` on its wires. -/
def outcome (s : State) (p : PortId) (call : Call) (a b : WireAnswer) : Result :=
  resultOf (s.chain p) (hear (s.chain p) call a b)

/-- R72, R73: the wire is idle again, and swapped when the copy on the wire not selected alone was good. -/
def afterResult (p : PortId) (x : Result) (s : State) : State :=
  let t := s.setChain p { s.chain p with inFlight := none }
  match x with
  | .answered _ true => swapWire p t
  | _ => t

/-! ### Segments that start (R23, R24, R30) -/

/-- R23, R34: the end condition names a channel that is UNMAPPED or LOST. -/
def Gone (s : State) (seg : Segment) : Prop :=
  ∃ ch idx side x, seg.condition = .channel ch idx side x ∧
    ((s.channel ch).state = .unmapped ∨ (s.channel ch).state = .lost)

/-- R23: how far a MOVE or GOTO has to go from the reference, with its sign. -/
def wayFrom (seg : Segment) (ref : Word) : Int :=
  match seg.kind with
  | .move => seg.target.getD 0
  | .goto => Word.diff (BitVec.ofInt 32 (seg.target.getD 0)) ref
  | .speed => seg.speed
  | .hold => 0

/-- R23: the direction in which a MOVE or GOTO starts: +1 with nothing to travel. -/
def firstDirection (seg : Segment) (ref : Word) : Option Direction :=
  some (if wayFrom seg ref < 0 then .backward else .forward)

/-- R23, Table 2-2: the run-time fields of a segment that becomes active at the reference `ref`, a MOVE or GOTO in the
direction `way`. -/
def startedAs (seg : Segment) (ref : Word) (way : Option Direction) : Active :=
  { seg := seg
    target :=
      match seg.kind with
      | .move => some (ref + BitVec.ofInt 32 (seg.target.getD 0))
      | .goto => some (BitVec.ofInt 32 (seg.target.getD 0))
      | .speed => none
      | .hold => none
    direction :=
      match seg.kind with
      | .move => way
      | .goto => way
      | .speed => if 0 < seg.speed then some .forward else if seg.speed < 0 then some .backward else none
      | .hold => none
    phase := if seg.kind = .hold then .cruise else .accel
    elapsed := 0, blend := .undecided }

/-- R30, R32: the head of the queue goes the way of the active segment, against the reference as it stands. -/
def HeadFollows (mo : Motor) (a : Active) : Prop :=
  ∃ h rest, mo.queue = h :: rest ∧
    ((a.direction = some .forward ∧ 0 < wayFrom h mo.refPos) ∨ (a.direction = some .backward ∧ wayFrom h mo.refPos < 0))

/-- R7: the motor in IDLE, BRAKED or FAULT, with the entry effects of that state. -/
def resting (st : MotorState) (mo : Motor) : Motor :=
  { mo with
    state := st, u := 0, uLim := 0, uOut := 0, starved := false, limited := .clear, overCount := 0, stallMs := 0 }

/-- R29, Table 2-4: the motor once its segment has ended between arrivals by `e`, a HOLD with its reference at `pos`. -/
def endedBy (e : EndAction) (pos : Word) (mo : Motor) : Motor :=
  let free := { mo with active := none }
  let here := { free with state := .holding, refPos := pos, refFrac := 0, vRef := 0, accFrac := 0 }
  match e with
  | .coast => resting .idle free
  | .brake => resting .braked free
  | .hold => here
  | .blend => here

/-! ### Numbers of a change set (R11, R93) -/

/-- A present number clamped to its range, and over what was there when absent. -/
def taken (lo hi : Int) (new : Option Int) (old : Option Nat) : Option Nat :=
  match new with
  | some x => some (max lo (min hi x)).toNat
  | none => old

/-- A present number lies outside its range. -/
def cut (lo hi : Int) : Option Int → Bool
  | some x => x < lo || hi < x
  | none => false

/-! ### What the work of one block leaves untouched -/

/-- The links but for their notice queues: nothing but notices has been placed. -/
def NoticesOnly (l l' : LinkUnit) : Prop := l' = { l with notices := l'.notices, overflow := l'.overflow }

/-- R180: the bound of a notice queue is kept. -/
def QueueBoundKept (l l' : LinkUnit) : Prop := l.notices.length ≤ 16 → l'.notices.length ≤ 16

/-- A chain but for its page-operation queue and the copy writes held aside. -/
def QueuesOnly (c c' : Chain) : Prop := c' = { c with queue := c'.queue, aside := c'.aside }

/-- A reaction but for its enable flag and its counts. -/
def storedReaction (r : Reaction) : Reaction := { r with enabled := false, fires := 0, skips := 0 }

/-- A clip but for its use count. -/
def storedClip (c : Clip) : Clip := { c with inUse := 0 }

/-- A watch but for its state, its reference and its count. -/
def storedWatch (w : Watch) : Watch := { w with state := .armed, reference := none, fires := 0 }

/-- What no motion, voice, reaction, watch, channel or chain work changes: the clock, the claims, the pins, the clip
store with its windows and cues, the master, the subscriptions, the budget; the tables of clips, watches and reactions
keep what was stored in them; the links keep their slots, assemblers and transmitters, the replies that wait, in their
order and ahead of new ones, and the bound on notices; the grants stay within the budget. -/
structure Steady (s t : State) : Prop where
  time : t.time = s.time
  linkUp : t.linkUp = s.linkUp
  resetTaken : t.resetTaken = s.resetTaken
  motorClaims : t.motorClaims = s.motorClaims
  voiceClaims : t.voiceClaims = s.voiceClaims
  encoder : t.encoder = s.encoder
  pwm : t.pwm = s.pwm
  aout : t.aout = s.aout
  store : t.store = s.store
  windows : t.windows = s.windows
  cues : t.cues = s.cues
  master : t.master = s.master
  subs : t.subs = s.subs
  pending : t.pending = s.pending
  budget : t.governor.budget = s.governor.budget
  grants : s.governor.used ≤ s.governor.budget → t.governor.used ≤ t.governor.budget
  reactions : ∀ n, (t.reaction n).map storedReaction = (s.reaction n).map storedReaction
  clips : ∀ n, (t.clip n).map storedClip = (s.clip n).map storedClip
  watchTable : ∀ n, (t.watch n).map storedWatch = (s.watch n).map storedWatch
  slots : ∀ src, (t.link src).slots = (s.link src).slots
  rx : ∀ src, (t.link src).rx = (s.link src).rx
  tx : ∀ src, (t.link src).tx = (s.link src).tx
  readyIn : ∀ src, (t.link src).readyIn = (s.link src).readyIn
  begun : ∀ src, (t.link src).begun = (s.link src).begun
  draws : ∀ src, (t.link src).draws = (s.link src).draws
  waiting : ∀ src, (s.link src).waiting <+: (t.link src).waiting
  notices : ∀ src, QueueBoundKept (s.link src) (t.link src)

/-- What the work of chain `p` leaves untouched beside: the other chains, but for their queues. -/
structure AtPort (p : PortId) (s t : State) : Prop extends Steady s t where
  others : ∀ q, q ≠ p → QueuesOnly (s.chain q) (t.chain q)

/-- What the channel map's work leaves untouched beside: the chains but for their queues, and the links but for their
notices. -/
structure Calm (s t : State) : Prop extends Steady s t where
  chains : ∀ p, QueuesOnly (s.chain p) (t.chain p)
  links : ∀ src, NoticesOnly (s.link src) (t.link src)

/-- What a channel's samples and losses leave untouched beside: every chain, every channel and the copy engine. -/
structure Local (s t : State) : Prop extends Calm s t where
  allChains : t.chains = s.chains
  channels : t.channels = s.channels
  copy : t.copy = s.copy

/-- What motion, voices and reactions leave untouched beside: every watch. -/
structure Quiet (s t : State) : Prop extends Local s t where
  watches : t.watches = s.watches

/-- A module record but for its poll countdown, which a SYNC changes (R85). -/
def storedModule (r : ModuleRecord) : ModuleRecord := { r with countdown := 0 }

/-- R74, R92: the chain `c'` that `c` becomes when its work stops: in state `st` with `call` on its wire, every timer
stopped, no sync pending and no round, and every module ABSENT, its settle timer stopped; the marks and the settings
stay. -/
structure Stopped (st : ChainState) (call : Option Call) (c c' : Chain) : Prop where
  state : c'.state = st
  call : c'.inFlight = call
  quiet : c'.syncPending = false ∧ c'.round = [] ∧ c'.restLeft = none ∧ c'.trainLeft = none ∧ c'.probeLeft = none ∧
    c'.retryLeft = none ∧ c'.syncLeft = none
  records : ∀ k : ModulePos, c'.modules[k.val]? = (c.modules[k.val]?).map fun r =>
    if r.state = .absent then r else { r with state := .absent, settleLeft := 0 }
  count : c'.modules.length = c.modules.length
  kept : c'.failedA = c.failedA ∧ c'.failedB = c.failedB ∧ c'.selected = c.selected ∧ c'.syncPeriod = c.syncPeriod ∧
    c'.threshold = c.threshold ∧ c'.sticky = c.sticky

/-- R92 step 2: the ABORTED replies of one link to the requests among the operations of a queue. -/
def abortedReplies (s : State) (src : Source) (ops : List PageOp) : List WaitingReply :=
  ops.filterMap fun op =>
    match op.origin with
    | .request link slot =>
      if link = src then
        (s.link src).slots[slot].map fun use => ⟨slot, use.kind + 0x80#8, use.tag, Reply.refuse .aborted⟩
      else none
    | .copy => none
    | .orphan => none

/-- R180: notices placed one after the other, each on its link. -/
def placed (s : State) (xs : List (Source × NoticeBody)) : State := xs.foldl (fun u x => u.place x.1 x.2) s

/-- R118: the channel with the record `x` in place of its own, and the CHANNEL_STATE notice of that change. -/
def channelEntered (s : State) (ch : ChannelId) (cause : ChannelCause) (x : Channel) : State :=
  (s.setChannel ch x).placeBoth
    (.channelState ch (s.channel ch).state x.state cause x.serving
      (match x.serving with
       | .primary => x.primary
       | .spare => x.spare) x.poor s.time)

/-- A state but for its owner records, which are those of `s`: for work that ends and gives claims. -/
def withClaims (t s : State) : State := { t with motorClaims := s.motorClaims, voiceClaims := s.voiceClaims }

/-! ### Invariants -/

/-- R136: the clip store is in canonical form, and no listed byte lies outside the store. -/
def StoreInv (s : State) : Prop := Store.wf s.store = true ∧ ∀ cell ∈ s.store, cell.1 < storeSize

/-- Section 4.1, R60, R66: the sum of the ten grants never exceeds the budget, which stays within its range (R65). -/
def BudgetInv (s : State) : Prop :=
  s.governor.used ≤ s.governor.budget ∧ 500 ≤ s.governor.budget ∧ s.governor.budget ≤ 8000

/-- R159: an owner record is legal: NONE has no lease, TABLET has one of 100 to 5000 ms, and a lease has time left, at
most its period. -/
def LegalClaim (c : Claim) : Prop :=
  match c.owner, c.lease with
  | none, none => True
  | none, some _ => False
  | some .program, none => True
  | some .program, some l => 100 ≤ l.period ∧ l.period ≤ 60000 ∧ 1 ≤ l.remaining ∧ l.remaining ≤ l.period
  | some .tablet, none => False
  | some .tablet, some l => 100 ≤ l.period ∧ l.period ≤ 5000 ∧ 1 ≤ l.remaining ∧ l.remaining ≤ l.period

/-- R159: every owner record is legal. -/
def ClaimInv (s : State) : Prop := ∀ r, LegalClaim (s.claim r)

/-- R180: no notice queue holds more than 16 notices. -/
def NoticeInv (s : State) : Prop := ∀ src, (s.link src).notices.length ≤ 16

/-- What every step keeps. -/
structure Inv (s : State) : Prop where
  store : StoreInv s
  budget : BudgetInv s
  claims : ClaimInv s
  notices : NoticeInv s

end Sys2Proof.Safety
end

