-- ==== Sys2Proof/Certificates/Slice0/Obligations.lean ====
section
/-! DEFINITION. The statements for the provers: what each command does to the state, what it leaves, and what every step
keeps. -/

section

open Sys2Proof Sys2Proof.Machine Sys2Proof.Safety

/-! ### The machine and its queue -/

/-- One step of a state with command `c` in front of its queue is the effect of `c` on the state with the queue's rest.
-/
def Obligations.StepRunsFrontCommand : Prop :=
  ∀ (c : Instr) (s : State) (rest : List Instr),
    step { s with pending := c :: rest } = exec c { s with pending := rest }

/-- The model's choice (log 1): with an empty queue one millisecond passes. Part time rises by 1, and every running
lease timer, chain timer, settle timer of a SETTLING module and period timer that has more than 1 ms left loses 1.
Nothing else changes. -/
def Obligations.IdleStepPassesOneMillisecond : Prop :=
  ∀ s : State, s.pending = [] →
    let left := fun (n : Nat) => if n ≤ 1 then n else n - 1
    ∃ t, step s = .next t ∧ t.time = s.time + 1 ∧
      (∀ r, t.claim r = { s.claim r with
        lease := (s.claim r).lease.map fun l => { l with remaining := left l.remaining } }) ∧
      (∀ p, t.chain p = { s.chain p with
        modules := (s.chain p).modules.map fun r =>
          { r with settleLeft := if r.state = .settling then left r.settleLeft else r.settleLeft }
        restLeft := (s.chain p).restLeft.map left
        trainLeft := (s.chain p).trainLeft.map left
        probeLeft := (s.chain p).probeLeft.map left
        retryLeft := (s.chain p).retryLeft.map left
        syncLeft := (s.chain p).syncLeft.map left }) ∧
      (∀ n, t.sub n = (s.sub n).map fun x => { x with periodLeft := left x.periodLeft }) ∧
      t = { s with time := t.time, motorClaims := t.motorClaims, voiceClaims := t.voiceClaims, chains := t.chains,
                   subs := t.subs }

/-- Every command is executed: none stops the machine. No command touches the queue of the commands that wait. -/
def Obligations.EveryCommandCompletes : Prop :=
  (∀ (c : Instr) (s : State), ∃ t, exec c s = .next t) ∧
  (∀ (c : Instr) (s t : State), exec c s = .next t → t.pending = s.pending)

/-- R179: every accepted request but the two page requests has its reply waiting, last, when the request has been taken:
in its slot, of its kind plus 80h, with its TAG. -/
def Obligations.EveryRequestIsAnswered : Prop :=
  ∀ (c : Instr) (s : State) (src : Source) (tag : Byte) (k : RequestKind) (i : Fin 8),
    requestOf c = some (src, tag, k) → k ≠ .modulePageWrite → k ≠ .modulePageRead → Accepts s src i →
      ∃ t r, exec c s = .next t ∧ (t.link src).slots[i] = some ⟨RequestKind.code k, tag⟩ ∧
        (t.link src).waiting.getLast? = some ⟨i, RequestKind.code k + 0x80#8, tag, r⟩

/-! ### Resets and LINK_UP (R182, R184) -/

/-- The values that the spec gives for reset hold in the state after reset: every field of Table 1-6 with the
configuration of Table 1-3, the budget and no grant (R59), no owner (R159), Table 5-4, the UNMAPPED values of Table 6-3
and a free copy engine (R119), empty tables of watches, reactions, clips, cues and subscriptions (R134, R157, R168), the
clip store of 00h, window 0 valid over the whole store, windows 1 to 3 invalid without rights and lock, IDLE voices
(R157), the master at 768 (R155), and each link unit hunting with free slots, no reply, no frame in progress and a clear
overflow flag, STARTED being the program link's one notice, whose READY-out is high (R184). That the tablet link has
none, LINK_UP being low, is the model's choice (log 7). -/
def Obligations.ResetValues : Prop :=
  State.reset.time = 0 ∧
  (∀ m, (State.reset.motor m).state = .idle ∧ (State.reset.motor m).position = 0 ∧
    (State.reset.motor m).history = List.replicate 16 0 ∧ (State.reset.motor m).vmeas = 0 ∧
    (State.reset.motor m).iAvg = 0 ∧ (State.reset.motor m).uOut = 0 ∧ (State.reset.motor m).overCount = 0 ∧
    (State.reset.motor m).stallMs = 0 ∧ (State.reset.motor m).queue = [] ∧ (State.reset.motor m).active = none ∧
    (State.reset.motor m).config =
      { dutyLimit := 1000, kp := 400, kv := 80, ki := 12, kf := 240, stallCurrent := 1500, stallSpeed := 20,
        stallTime := 300, tripCurrent := 3500, polarity := .normal, lossAction := .brake } ∧
    (State.reset.motor m).pendingConfig =
      { dutyLimit := none, kp := none, kv := none, ki := none, kf := none, stallCurrent := none, stallSpeed := none,
        stallTime := none, tripCurrent := none, lossAction := none } ∧
    (State.reset.motor m).refPos = 0 ∧ (State.reset.motor m).refFrac = 0 ∧ (State.reset.motor m).vRef = 0 ∧
    (State.reset.motor m).accFrac = 0 ∧ (State.reset.motor m).integ = 0 ∧
    (State.reset.motor m).limited = .clear ∧ (State.reset.motor m).starved = false) ∧
  State.reset.governor.budget = 3000 ∧ (∀ r, State.reset.governor.supply r = ⟨0, 0⟩) ∧
  (∀ r, State.reset.claim r = ⟨none, none⟩) ∧
  (∀ p, (State.reset.chain p).state = .reset ∧ (State.reset.chain p).inFlight = some .resetAll ∧
    (State.reset.chain p).modules = [] ∧ (State.reset.chain p).overlong = false ∧
    (State.reset.chain p).failedA = false ∧ (State.reset.chain p).failedB = false ∧
    (State.reset.chain p).selected = .retA ∧ (State.reset.chain p).syncPeriod = 40 ∧
    (State.reset.chain p).threshold = 64 ∧ (State.reset.chain p).sticky = false ∧
    (State.reset.chain p).syncPending = false ∧ (State.reset.chain p).roundStamp = 0 ∧
    (State.reset.chain p).round = [] ∧ (State.reset.chain p).queue = [] ∧ (State.reset.chain p).aside = [] ∧
    (State.reset.chain p).faultCount = 0) ∧
  (∀ c, State.reset.channel c =
    { state := .unmapped, primary := none, spare := none, kind := 0, valueCount := 0, num := 1, den := 1, offset := 0,
      serving := .primary, values := Vector.replicate 8 0, fresh := false, stamp := 0, poor := false,
      staleAt := none }) ∧ State.reset.copy = none ∧
  (∀ n, State.reset.watch n = none ∧ State.reset.reaction n = none) ∧
  (∀ a, Store.read State.reset.store a = 0) ∧
  State.reset.windows[0] =
    { valid := true, base := 0, size := 262144, programWrite := true, tabletWrite := false, playable := true,
      locked := false } ∧
  (∀ n : WindowId, n ≠ 0 → State.reset.windows[n].valid = false ∧ State.reset.windows[n].programWrite = false ∧
    State.reset.windows[n].tabletWrite = false ∧ State.reset.windows[n].playable = false ∧
    State.reset.windows[n].locked = false) ∧
  (∀ n, State.reset.clip n = none) ∧ (∀ n, State.reset.cue n = none) ∧
  (∀ v, (State.reset.voice v).state = .idle ∧ (State.reset.voice v).cueEntry = none ∧
    (State.reset.voice v).cue = none ∧ (State.reset.voice v).phase = 0 ∧ (State.reset.voice v).level = 1024 ∧
    (State.reset.voice v).target = 0 ∧ (State.reset.voice v).gain = 0 ∧ (State.reset.voice v).ceiling = 0 ∧
    (State.reset.voice v).fadeReason = none ∧ (State.reset.voice v).fadeLink = none) ∧ State.reset.master = 768 ∧
  (∀ n, State.reset.sub n = none) ∧
  (∀ link, (State.reset.link link).rx = .hunting ∧ (∀ i : Fin 8, (State.reset.link link).slots[i] = none) ∧
    (State.reset.link link).waiting = [] ∧ (State.reset.link link).overflow = false ∧
    (State.reset.link link).tx = none) ∧
  State.reset.program.notices = [⟨false, .started .powerOn 0⟩] ∧ State.reset.tablet.notices = [] ∧
  State.reset.readyOut .program = true

/-- R184: POWER_ON gives every block its reset values, sets part time to 0 and places STARTED on the program link, and
on the tablet link while LINK_UP is high. R157, R183, R184: SOFT_RESET gives every block its reset values but keeps the
clip store, the windows, the clip directory with every in-use count at 0, and the cue table; STARTED is placed as at
power-on, with its own cause. The model's choices here: the levels of the pins and the waiting commands stay (log 8), a
frame in the transmitter is dropped (log 17), and the reset values that the spec does not give are those of State.reset
(logs 7 and 30). -/
def Obligations.ResetsGiveResetValues : Prop :=
  (∀ s : State, exec .powerOn s = .next
     { State.reset with
       linkUp := s.linkUp, encoder := s.encoder, pwm := s.pwm, aout := s.aout, pending := s.pending
       program := { LinkUnit.reset s.program with notices := [⟨false, .started .powerOn 0⟩] }
       tablet :=
         if s.linkUp then { LinkUnit.reset s.tablet with notices := [⟨false, .started .powerOn 0⟩] }
         else LinkUnit.reset s.tablet }) ∧
  (∀ s : State, ∃ t, exec .softReset s = .next t ∧
     (∀ n, t.clip n = (s.clip n).map fun c => { c with inUse := 0 }) ∧
     t = { State.reset with
           linkUp := s.linkUp, encoder := s.encoder, pwm := s.pwm, aout := s.aout, pending := s.pending
           store := s.store, windows := s.windows, clips := t.clips, cues := s.cues
           program := { LinkUnit.reset s.program with notices := [⟨false, .started .softReset 0⟩] }
           tablet :=
             if s.linkUp then { LinkUnit.reset s.tablet with notices := [⟨false, .started .softReset 0⟩] }
             else LinkUnit.reset s.tablet })

/-- R182: LINK_UP_RISE starts the tablet link hunting with empty slots and queues, and places STARTED with cause LINK_UP
on it. A rise of a LINK_UP that is high already changes nothing (the model's choice, log 2). R134, R166, R168, R182:
LINK_UP_FALL empties the tablet link, removes the watches, reactions and subscriptions of TABLET, and ends its claims,
each with no owner and no lease after; other claims, watches, subscriptions and what other reactions store stay, and so
do time, channels, the clip store, windows, cues, the master and the pins. R90, R91: every page read of TABLET leaves
the page-operation queues, but for one in flight at a head, which stays as an operation whose outcome goes nowhere (log
16); then the copy writes held aside join its tail, as many as it has room for, in the order held (log 15 for more than
one). R38, R161, R166, Table 9-2: after that the claims of TABLET end one at a time, in the order M0 to M5, V0 to V3,
with LINK_UP low: a motor takes its loss_action as a stop action with reason LEASE and a voice a fade-stop with LEASE;
then the record is emptied; then CLAIM_END with reason LINK_DOWN is placed; then the reactions take the event. -/
def Obligations.LinkUpStartsAndDropsTablet : Prop :=
  (∀ s : State,
     (s.linkUp = false → exec .linkUpRise s = .next
       { s with linkUp := true,
                tablet := { LinkUnit.reset s.tablet with notices := [⟨false, .started .linkUp s.time⟩] } }) ∧
     (s.linkUp = true → exec .linkUpRise s = .next s)) ∧
  (∀ s : State, s.linkUp = true → ∃ t, exec .linkUpFall s = .next t ∧ t.linkUp = false ∧
     t.tablet = LinkUnit.reset s.tablet ∧
     (∀ r, t.claim r = if s.owner r = some .tablet then ⟨none, none⟩ else s.claim r) ∧
     (∀ n, t.watch n = if (s.watch n).map Watch.creator = some .tablet then none else s.watch n) ∧
     (∀ n, (t.reaction n).map storedReaction =
       if (s.reaction n).map Reaction.creator = some .tablet then none else (s.reaction n).map storedReaction) ∧
     (∀ n, t.sub n = if (s.sub n).map Subscription.link = some .tablet then none else s.sub n) ∧
     (∀ p,
       let c := s.chain p
       let tabletRead := fun (op : PageOp) =>
         match op.origin, op.bytes with
         | .request .tablet _, none => true
         | _, _ => false
       let flying :=
         match c.inFlight with
         | some (.setPage _ _ _) => true
         | some (.getPage _ _) => true
         | _ => false
       let others := fun (ops : List PageOp) => ops.filter fun op => !tabletRead op
       let kept :=
         match c.queue with
         | [] => []
         | op :: ops =>
           if tabletRead op && flying then { op with origin := .orphan } :: others ops else others (op :: ops)
         let room := 8 - kept.length
         t.chain p = { c with queue := kept ++ c.aside.take room, aside := c.aside.drop room }) ∧
     (∃ dropped,
       let ended := fun (u : State) (r : Resource) =>
         let v :=
           match r with
           | .motor m => afterEvents (stopAction m .lease (u.motor m).config.lossAction u)
           | .voice v => fadeStop react v .lease u
         react (.claimEnd r .linkDown)
           ((v.setClaim r ⟨none, none⟩).placeBoth (.claimEnd r .linkDown (some .tablet) none v.time))
       let torn := allResources.foldl (fun u r => if u.owner r = some .tablet then ended u r else u) dropped
       t = { torn with tablet := LinkUnit.reset torn.tablet } ∧
       (∀ n, dropped.reaction n =
         if (s.reaction n).map Reaction.creator = some .tablet then none else s.reaction n) ∧
       dropped = { s with
                   linkUp := false, tablet := { s.tablet with rx := .hunting, tx := none, begun := 0 }
                   watches := t.watches, reactions := dropped.reactions, subs := t.subs, chains := t.chains }) ∧
     t.time = s.time ∧ t.channels = s.channels ∧ t.copy = s.copy ∧ t.store = s.store ∧ t.windows = s.windows ∧
     t.cues = s.cues ∧ t.master = s.master ∧ t.aout = s.aout ∧ t.encoder = s.encoder ∧ t.pwm = s.pwm ∧
     t.program.slots = s.program.slots ∧ t.program.waiting = s.program.waiting ∧ t.program.rx = s.program.rx ∧
     t.program.tx = s.program.tx)

/-! ### Frames that come in (R176 to R179) -/

/-- R177: the receive assembler, byte by byte. Hunting, it waits for A5h; then a LEN of 2 to 252 starts the collection
and another is discarded; it collects LEN bytes; and a CHECK byte that is not the CRC-8 of what came discards the frame.
Nothing but the assembler changes. R176: READY_IN_CHANGE sets the level of READY-in, with which the transmitter may
start a byte or may not, and keeps the frame in progress. A fall inside a frame pauses it between bytes: so many of its
bytes have begun, no fewer than before and no more than the frame has; which number is free (log 40). R177:
FRAME_BYTE_TIMEOUT discards the partial frame. Nothing else changes. R178, Table 11-2: a complete frame is the row that
its KIND and its body spell, for the kinds whose body layout the spec gives: the kinds without a body, those whose body
is one number, SEG, and every KIND that is none. R176: a body of two bytes that is one number is little-endian, and so
is every number of another body, of which the claim's lease, VOICE_GAIN's level, WINDOW_SET's base and size,
STORE_READ's offset and count and MAP_SET's num, den and offset stand here; its place, and whether it is signed where
its field does not say, are open (log 4), but the lease, base, size, offset and count are unsigned, which is the model's
choice (log 45). R11, R14: a gain of a MOTOR_SET body is an unsigned 16-bit number and ZERO's value a signed 32-bit one;
their places in the body are open. R20, Table 11-4: the stored segment of a REACT_SET is a segment record of 26 bytes of
its body; their place and the other fields are open (log 4). That a one-byte body is the number it names is the model's
reading (log 5). R178 step 3: a frame of a request kind whose body is shorter or longer than Table 11-2 gives is
answered BAD_LENGTH, with the claim table in a reply to CLAIM, RELEASE, RENEW or TAKE (R159, log 19); nothing else
changes. -/
def Obligations.AssemblerTakesBytes : Prop :=
  (∀ (s : State) (link : Source) (b : Byte),
     let rx := fun (x : Assembler) => s.setLink link { s.link link with rx := x }
     (link = .tablet ∧ s.linkUp = false → exec (.byteReceived link b) s = .next s) ∧
     (Sends s link → (s.link link).rx = .hunting →
       exec (.byteReceived link b) s = .next (if b = 0xA5#8 then rx .awaitLen else s)) ∧
     (Sends s link → (s.link link).rx = .awaitLen →
       exec (.byteReceived link b) s =
         .next (if 2 ≤ b.toNat ∧ b.toNat ≤ 252 then rx (.collecting b []) else rx .hunting)) ∧
     (∀ len got, Sends s link → (s.link link).rx = .collecting len got → got.length < len.toNat →
       exec (.byteReceived link b) s = .next (rx (.collecting len (got ++ [b])))) ∧
     (∀ len got, Sends s link → (s.link link).rx = .collecting len got → len.toNat ≤ got.length →
       crc8 (len :: got) ≠ b → exec (.byteReceived link b) s = .next (rx .hunting))) ∧
  (∀ (s : State) (link : Source),
     let l := s.link link
     let level := fun high => s.setLink link { l with readyIn := high }
     exec (.readyInChange link true) s = .next (level true) ∧
     (l.readyIn = false ∨ l.tx = none → exec (.readyInChange link false) s = .next (level false)) ∧
     (∀ f, l.readyIn = true → l.tx = some f → ∃ n, min (frameBytes f).length l.begun ≤ n ∧ n ≤ (frameBytes f).length ∧
       exec (.readyInChange link false) s =
         .next (s.setLink link { l with readyIn := false, begun := n, draws := l.draws + 1 })) ∧
     (∀ high t, exec (.readyInChange link high) s = .next t →
       (t.link link).tx = l.tx ∧ (t.startsBytes link = true ↔ high = true ∧ Sends s link)) ∧
     exec (.frameByteTimeout link) s = .next (s.setLink link { l with rx := .hunting })) ∧
  (∀ (s : State) (src : Source) (tag n : Byte) (record : List Byte), record.length = 26 →
     exec (.ident src tag) s = .next (takeFrame src 0x01#8 tag [] s) ∧
     exec (.reset src tag) s = .next (takeFrame src 0x02#8 tag [] s) ∧
     exec (.budgetRead src tag) s = .next (takeFrame src 0x19#8 tag [] s) ∧
     exec (.motorRead src tag n.toNat) s = .next (takeFrame src 0x11#8 tag [n] s) ∧
     exec (.clearFault src tag n.toNat) s = .next (takeFrame src 0x13#8 tag [n] s) ∧
     exec (.chainRead src tag n.toNat) s = .next (takeFrame src 0x22#8 tag [n] s) ∧
     exec (.mapClear src tag n.toNat) s = .next (takeFrame src 0x29#8 tag [n] s) ∧
     exec (.channelRead src tag n.toNat) s = .next (takeFrame src 0x2A#8 tag [n] s) ∧
     exec (.watchClear src tag n.toNat) s = .next (takeFrame src 0x31#8 tag [n] s) ∧
     exec (.reactClear src tag n.toNat) s = .next (takeFrame src 0x33#8 tag [n] s) ∧
     exec (.clipRemove src tag n.toNat) s = .next (takeFrame src 0x3C#8 tag [n] s) ∧
     exec (.cueClear src tag n.toNat) s = .next (takeFrame src 0x3E#8 tag [n] s) ∧
     exec (.unsubscribe src tag n.toNat) s = .next (takeFrame src 0x49#8 tag [n] s) ∧
     exec (.seg src tag n.toNat (segmentRecord record)) s = .next (takeFrame src 0x14#8 tag (n :: record) s) ∧
     ((∀ k, RequestKind.code k ≠ n) → ∀ body, exec (.unknownKind src tag n) s = .next (takeFrame src n tag body s))) ∧
  (∀ (s : State) (src : Source) (tag lo hi : Byte), ∃ budget master : Int,
     let n : Int := lo.toNat + 256 * hi.toNat
     exec (.budgetSet src tag budget) s = .next (takeFrame src 0x18#8 tag [lo, hi] s) ∧
     exec (.masterSet src tag master) s = .next (takeFrame src 0x42#8 tag [lo, hi] s) ∧
     (budget = n ∨ budget = if n < 32768 then n else n - 65536) ∧
     (master = n ∨ master = if n < 32768 then n else n - 65536)) ∧
  (∀ (s : State) (src : Source) (tag : Byte) (body : List Byte),
     let run := fun (first count : Nat) => (body.drop first).take count
     let unsigned := fun (x : Nat) => ∃ first count, x = leNat (run first count)
     let number := fun (x : Int) => ∃ first count, x = leNat (run first count) ∨ x = leInt (run first count)
     let is := fun (c : Instr) (k : RequestKind) =>
       exec c s = .next (takeFrame src (RequestKind.code k) tag body s)
     (body.length = 4 → ∃ f, is (.claim src tag f) .claim ∧ unsigned f.lease) ∧
     (body.length = 23 → ∃ m f, is (.motorSet src tag m f) .motorSet ∧
       ∀ x, f.kp = some x ∨ f.kv = some x ∨ f.ki = some x ∨ f.kf = some x → ∃ first ≤ 21, x = leNat (run first 2)) ∧
     (body.length = 5 → ∃ m, ∃ first ≤ 1,
       is (.zero src tag m (BitVec.ofInt 32 (leInt (run first 4)))) .zero) ∧
     (body.length = 3 → ∃ v x, is (.voiceGain src tag v x) .voiceGain ∧ number x) ∧
     (body.length = 12 → ∃ f, is (.windowSet src tag f) .windowSet ∧ unsigned f.base ∧ unsigned f.size) ∧
     (body.length = 5 → ∃ a n, is (.storeRead src tag a n) .storeRead ∧ unsigned a ∧ unsigned n) ∧
     (body.length = 14 → ∃ f, is (.mapSet src tag f) .mapSet ∧ number f.num ∧ number f.den ∧ number f.offset)) ∧
  (∀ (s : State) (src : Source) (tag : Byte) (body : List Byte), body.length = 37 →
     ∃ f : ReactFields, exec (.reactSet src tag f) s = .next (takeFrame src 0x32#8 tag body s) ∧
       ∀ m record replace, f.action = .segment m record replace →
         ∃ place, place ≤ 11 ∧ record = segmentRecord ((body.drop place).take 26)) ∧
  (∀ (s : State) (src : Source) (i : Fin 8) (tag : Byte) (k : RequestKind) (body : List Byte), Accepts s src i →
     (RequestKind.programOnly k = true → src = .program) →
     (body.length < (bodyLength k).1 ∨ (bodyLength k).2 < body.length) →
     takeFrame src (RequestKind.code k) tag body s =
       answered s src i (RequestKind.code k) tag
         ⟨.badLength, false, if k ∈ [.claim, .release, .renew, .take] then .claims (claimTable s) [] else .empty⟩)

/-- R178: a complete frame whose KIND is no code of Table 11-2 is answered in a reply of kind FFh that carries its TAG,
status UNKNOWN_KIND and the KIND; nothing else changes. R178, R183: a request frame that finds every slot reserved, or
comes on a link that takes no frames, changes nothing. R167, Table 9-3: each of the ten PROGRAM-only kinds from the
tablet is answered NOT_PERMITTED, TAKE with the claim table (R159, log 19), and changes nothing else. -/
def Obligations.RequestsTurnedAway : Prop :=
  (∀ (s : State) (src : Source) (i : Fin 8) (tag kind : Byte), (∀ k, RequestKind.code k ≠ kind) → Accepts s src i →
     exec (.unknownKind src tag kind) s = .next
       (s.setLink src
         { s.link src with
           slots := (s.link src).slots.set i (some ⟨kind, tag⟩)
           waiting := (s.link src).waiting ++ [⟨i, 0xFF#8, tag, ⟨.unknownKind, false, .unknownKind kind⟩⟩] })) ∧
  (∀ (c : Instr) (s : State) (src : Source) (tag : Byte) (k : RequestKind), requestOf c = some (src, tag, k) →
     (s.takesFrames src = false ∨ ∀ i : Fin 8, (s.link src).slots[i] ≠ none) → exec c s = .next s) ∧
  (∀ (c : Instr) (s : State) (tag : Byte) (k : RequestKind) (i : Fin 8), requestOf c = some (.tablet, tag, k) →
     k ∈ [.reset, .take, .budgetSet, .chainRestart, .chainSet, .modulePageWrite, .mapSet, .mapClear, .windowSet,
       .masterSet] → Accepts s .tablet i →
     exec c s = .next (answered s .tablet i (RequestKind.code k) tag
       ⟨.notPermitted, false, if k = .take then .claims (claimTable s) [] else .empty⟩))

/-- R10, R144, R147, R149, R167: the eight owner-only requests. A number that names no motor or voice is answered
BAD_VALUE, and a sender that does not own the resource NOT_OWNER, whatever the other fields hold; a refusal changes
nothing else. That STOP's option is judged after the owner is the model's reading of R147 with R167 (log 33). -/
def Obligations.OwnerOnlyRefusals : Prop :=
  ∀ (s : State) (src : Source) (i : Fin 8) (tag : Byte) (n : Nat) (f : MotorSetFields) (value : Word)
    (seg : RawSegment) (action : Coded StopAction) (cue : Nat) (o : Coded FadeOption) (level : Int),
    Accepts s src i →
    (6 ≤ n →
      exec (.motorSet src tag n f) s = .next (answered s src i 0x10#8 tag (Reply.refuse .badValue)) ∧
      exec (.zero src tag n value) s = .next (answered s src i 0x12#8 tag (Reply.refuse .badValue)) ∧
      exec (.clearFault src tag n) s = .next (answered s src i 0x13#8 tag (Reply.refuse .badValue)) ∧
      exec (.seg src tag n seg) s = .next (answered s src i 0x14#8 tag (Reply.refuse .badValue)) ∧
      exec (.halt src tag n action) s = .next (answered s src i 0x15#8 tag (Reply.refuse .badValue))) ∧
    (∀ m : MotorId, n = m.val → s.owner (.motor m) ≠ some src →
      exec (.motorSet src tag n f) s = .next (answered s src i 0x10#8 tag (Reply.refuse .notOwner)) ∧
      exec (.zero src tag n value) s = .next (answered s src i 0x12#8 tag (Reply.refuse .notOwner)) ∧
      exec (.clearFault src tag n) s = .next (answered s src i 0x13#8 tag (Reply.refuse .notOwner)) ∧
      exec (.seg src tag n seg) s = .next (answered s src i 0x14#8 tag (Reply.refuse .notOwner)) ∧
      exec (.halt src tag n action) s = .next (answered s src i 0x15#8 tag (Reply.refuse .notOwner))) ∧
    (4 ≤ n →
      exec (.play src tag n cue) s = .next (answered s src i 0x3F#8 tag (Reply.refuse .badValue)) ∧
      exec (.stop src tag n o) s = .next (answered s src i 0x40#8 tag (Reply.refuse .badValue)) ∧
      exec (.voiceGain src tag n level) s = .next (answered s src i 0x41#8 tag (Reply.refuse .badValue))) ∧
    (∀ v : VoiceId, n = v.val → s.owner (.voice v) ≠ some src →
      exec (.play src tag n cue) s = .next (answered s src i 0x3F#8 tag (Reply.refuse .notOwner)) ∧
      exec (.stop src tag n o) s = .next (answered s src i 0x40#8 tag (Reply.refuse .notOwner)) ∧
      exec (.voiceGain src tag n level) s = .next (answered s src i 0x41#8 tag (Reply.refuse .notOwner)))

/-- R177: the bytes of a whole frame, received one after the other by a hunting assembler, are one complete frame with
that KIND, TAG and BODY, taken once, whatever the body of up to 250 bytes holds; the assembler hunts again. -/
def Obligations.WholeFrameIsTakenOnce : Prop :=
  ∀ (s : State) (link : Source) (kind tag : Byte) (body : List Byte), body.length ≤ 250 → Sends s link →
    (s.link link).rx = .hunting → feed link s (frameOf kind tag body) = .next (takeFrame link kind tag body s)

/-- R183: IDENT answers the three codes and the counts and changes nothing else; RESET is answered OK, and the program
link takes no frame after it. -/
def Obligations.IdentAndReset : Prop :=
  ∀ (s : State) (src : Source) (i : Fin 8) (tag : Byte),
    (Accepts s src i → exec (.ident src tag) s = .next (answered s src i 0x01#8 tag
      (Reply.ok false (.ident [0x4A, 0x0640, 0x01] [6, 4, 4, 4, 16, 16, 16, 48, 64, 4, 24, 8, 16])))) ∧
    (Accepts s .program i → ∃ t, exec (.reset .program tag) s = .next t ∧
      t = answered { s with resetTaken := true } .program i 0x02#8 tag (Reply.ok false .empty) ∧
      t.takesFrames .program = false)

/-! ### Frames that go out (R172, R174, R179, R181, R183) -/

/-- R181: what a frame start sends: the oldest waiting reply, ahead of a STARTED too (the model's reading, log 46); else
telemetry while a due subscription of the link is urgent; else the head notice; else telemetry while one is due. No
frame start comes while the transmitter is busy, READY-in is low, nothing is to be sent, or, on the tablet link, LINK_UP
is low. R174: a telemetry frame holds up to twelve due subscriptions of its link, each once, with its value as it is
read. They stand in order, and ahead of every due one left out: the urgent ones, oldest due-since first and then the
lower id, and then the rest, higher priority first and then the lower id; a subscription that is sent is no longer due,
and remembers its value. Nothing but the subscriptions changes. -/
def Obligations.FrameStartSendsFrames : Prop :=
  (∀ (s : State) (link : Source),
     let l := s.link link
     let telemetry :=
       (buildFrame link s).1.setLink link { l with tx := some (.telemetry (buildFrame link s).2), begun := 1 }
     (¬CanStart s link → exec (.frameStart link) s = .next s) ∧
     (∀ r rest, CanStart s link → l.waiting = r :: rest →
       exec (.frameStart link) s =
         .next (s.setLink link { l with waiting := rest, tx := some (.reply r), begun := 1 })) ∧
     (CanStart s link → l.waiting = [] → UrgentDue s link → exec (.frameStart link) s = .next telemetry) ∧
     (∀ n rest, CanStart s link → l.waiting = [] → ¬UrgentDue s link → l.notices = n :: rest →
       exec (.frameStart link) s =
         .next (s.setLink link { l with notices := rest, tx := some (.notice n), begun := 1 })) ∧
     (CanStart s link → l.waiting = [] → l.notices = [] → (∃ n x, Due s link n x) →
       exec (.frameStart link) s = .next telemetry) ∧
     (CanStart s link → l.waiting = [] → l.notices = [] → (¬∃ n x, Due s link n x) →
       exec (.frameStart link) s = .next s)) ∧
  (∀ (s : State) (link : Source),
     let t := (buildFrame link s).1
     let f := (buildFrame link s).2
     let ahead := fun (n k : SubId) => ∃ x y, s.sub n = some x ∧ s.sub k = some y ∧
       let wait := fun (z : Subscription) => (s.time - z.dueSince).toNat
       ((Urgent s.time x ∧ ¬Urgent s.time y) ∨
        (Urgent s.time x ∧ Urgent s.time y ∧ (wait y < wait x ∨ wait y = wait x ∧ n < k)) ∨
        (¬Urgent s.time x ∧ ¬Urgent s.time y ∧ (y.priority < x.priority ∨ y.priority = x.priority ∧ n < k)))
     f.stamp = s.time ∧ f.items.length = min 12 (dueList s link).length ∧ (f.items.map SentItem.id).Nodup ∧
     (∀ item ∈ f.items, ∃ x, Due s link item.id x ∧ item.reading = readItem s x.item ∧
       item.coalesced = x.coalesced ∧ (item.urgent = true ↔ Urgent s.time x) ∧
       t.sub item.id = some { x with lastSent := some item.reading.value, due := false, coalesced := false }) ∧
     (∀ n, n ∉ f.items.map SentItem.id → t.sub n = s.sub n) ∧
     (f.items.map SentItem.id).Pairwise ahead ∧
     (∀ n x, Due s link n x → n ∉ f.items.map SentItem.id → ∀ k ∈ f.items.map SentItem.id, ahead k n) ∧
     t = { s with subs := t.subs })

/-- R179, R183: when the last byte of a frame has been sent the transmitter is idle, and a reply's slot is free. After
the OK reply to a RESET on the program link the soft reset follows, in the same step (log 18); no other reply resets
anything, a BAD_LENGTH reply to a RESET frame included. FRAME_SENT at an idle transmitter changes nothing (the model's
choice, log 2). R176: a frame that READY-in pauses between bytes is not at its end, and nothing changes (log 40). R177,
R179, Tables 11-1, 11-3, 11-5: the bytes of a frame: SYNC, LEN, KIND, TAG, body and CHECK; the body of a reply begins
with its status byte, the code of Table 11-3 with CLAMPED in bit 7, and is that byte alone where it has no content; that
of a telemetry frame is its stamp, its number of items and the items of eight bytes. R180, section 11.3: the frame of a
notice has its KIND of E0h to E9h and TAG 00h, and its body begins with a flags byte, one bit of which carries OVERFLOW.
R176: a number in a content goes out little-endian, the master of a MASTER_SET reply for one; its place is open (log
35). -/
def Obligations.FrameSentFreesItsSlot : Prop :=
  (∀ (s : State) (link : Source),
     let l := s.link link
     let idle := s.setLink link { l with tx := none, begun := 0 }
     (l.tx = none → exec (.frameSent link) s = .next s) ∧
     (∀ f, l.tx = some f → l.readyIn = false → l.begun < (frameBytes f).length → exec (.frameSent link) s = .next s) ∧
     (∀ f, l.tx = some f → (l.readyIn = true ∨ (frameBytes f).length ≤ l.begun) →
       (∀ n, f = .notice n → exec (.frameSent link) s = .next idle) ∧
       (∀ x, f = .telemetry x → exec (.frameSent link) s = .next idle) ∧
       (∀ r, f = .reply r →
         let freed := s.setLink link { l with slots := l.slots.set r.slot none, tx := none, begun := 0 }
         (link = .tablet ∨ r.kind ≠ 0x82#8 ∨ r.reply.status ≠ .ok → exec (.frameSent link) s = .next freed) ∧
         (link = .program → r.kind = 0x82#8 → r.reply.status = .ok →
           ∃ t, exec (.frameSent link) s = .next t ∧ exec .softReset freed = .next t)))) ∧
  (∀ r : WaitingReply,
     let code : Byte :=
       match r.reply.status with
       | .ok => 0x00
       | .accepted => 0x01
       | .unknownKind => 0x02
       | .badLength => 0x03
       | .badValue => 0x04
       | .notPermitted => 0x05
       | .notOwner => 0x06
       | .held => 0x07
       | .full => 0x08
       | .busy => 0x09
       | .faulted => 0x0A
       | .denied => 0x0B
       | .inUse => 0x0C
       | .noSource => 0x0D
       | .failed => 0x0E
       | .aborted => 0x0F
     frameBytes (.reply r) =
       frameOf r.kind r.tag ((if r.reply.clamped then code + 0x80 else code) :: replyContent r.reply.body)) ∧
  (replyContent .empty = [] ∧ ∀ kind, replyContent (.unknownKind kind) = [kind]) ∧
  (∃ overflow : Fin 8, ∀ n : Notice, ∃ flags content,
     let kind : Byte :=
       match n.body with
       | .started .. => 0xE0
       | .segmentEnd .. => 0xE1
       | .motorFault .. => 0xE2
       | .chainState .. => 0xE3
       | .moduleState .. => 0xE4
       | .channelState .. => 0xE5
       | .watchFired .. => 0xE6
       | .reaction .. => 0xE7
       | .voiceEnd .. => 0xE8
       | .claimEnd .. => 0xE9
     frameBytes (.notice n) = frameOf kind 0x00 (flags :: content) ∧ flags.getLsbD overflow = n.overflow) ∧
  (∀ f : TelemetryFrame, frameBytes (.telemetry f) = frameOf 0xF0#8 0 (toLe 4 f.stamp.toNat ++
     (BitVec.ofNat 8 f.items.length :: f.items.flatMap fun x =>
       BitVec.ofNat 8 x.id.val ::
         BitVec.ofNat 8 ((if x.reading.fresh then 1 else 0) + (if x.coalesced then 2 else 0) +
           (if x.urgent then 4 else 0) + (if x.reading.starved then 8 else 0)) ::
         (toLe 4 (BitVec.ofInt 32 x.reading.value).toNat ++ toLe 2 x.reading.age)))) ∧
  (∃ layout : List ContentPiece, ∀ n : Nat, replyContent (.master n) = layout.flatMap fun
     | .codes bytes => bytes
     | .number i width => toLe width (if i = 0 then n % 2 ^ (8 * width) else 0))

/-! ### Claims (Chapter 9) -/

/-- R159, R160: CLAIM takes every resource of its set when the other source owns none of them, with the lease clamped by
source, and is otherwise answered HELD with the resources held; all or nothing. An empty set is answered BAD_VALUE; a
set holds resources alone (the model's choice, log 44). No other record changes. R160: the lease that a source gets.
From TABLET it is clamped to 100–5000 ms; from PROGRAM 0 means none, and another value is clamped to 100–60,000. It
starts full, and CLAMPED tells that clamping changed it. -/
def Obligations.ClaimIsAllOrNothing : Prop :=
  (∀ (s : State) (src : Source) (i : Fin 8) (tag : Byte) (f : ClaimFields), Accepts s src i →
     (f.set = [] → exec (.claim src tag f) s =
       .next (answered s src i 0x08#8 tag ⟨.badValue, false, .claims (claimTable s) []⟩)) ∧
     (∀ r ∈ f.set, s.owner r = some (otherSource src) → ∃ held, exec (.claim src tag f) s =
         .next (answered s src i 0x08#8 tag ⟨.held, false, .claims (claimTable s) held⟩) ∧
       ∀ q, q ∈ held ↔ q ∈ f.set ∧ s.owner q = some (otherSource src)) ∧
     (f.set ≠ [] → (∀ r ∈ f.set, s.owner r ≠ some (otherSource src)) → ∃ t, exec (.claim src tag f) s =
         .next (answered t src i 0x08#8 tag ⟨.ok, leaseClamped src f.lease, .claims (claimTable t) []⟩) ∧
       (∀ r ∈ f.set, t.claim r = ⟨some src, clampLease src f.lease⟩) ∧
       (∀ r, r ∉ f.set → t.claim r = s.claim r) ∧ withClaims t s = s)) ∧
  (∀ n : Nat,
     clampLease .tablet n = some ⟨max 100 (min 5000 n), max 100 (min 5000 n)⟩ ∧
     clampLease .program n =
       (if n = 0 then none else some ⟨max 100 (min 60000 n), max 100 (min 60000 n)⟩) ∧
     (leaseClamped .tablet n = true ↔ n < 100 ∨ 5000 < n) ∧
     (leaseClamped .program n = true ↔ n ≠ 0 ∧ (n < 100 ∨ 60000 < n)))

/-- R162: RELEASE ends the claims of the sender in its set, leaves every other record, and lists the resources that the
sender does not own; an empty set is answered BAD_VALUE. What else it changes is the work of stop actions, fade-stops
and reactions. R38, R161, Table 9-2: the claims end one at a time, in the order M0 to M5, V0 to V3: a motor takes its
loss_action as a stop action with reason RELEASED and a voice a fade-stop with RELEASED; then the record is emptied;
then CLAIM_END with reason RELEASED is placed on both links; then the reactions take the event. R163: RENEW sets the
timers of the sender's leased claims in its set back to their full periods; nothing else changes. An empty set is
answered BAD_VALUE. -/
def Obligations.ReleaseAndRenew : Prop :=
  (∀ (s : State) (src : Source) (i : Fin 8) (tag : Byte) (set : List Resource), Accepts s src i →
     (set = [] → exec (.release src tag set) s =
       .next (answered s src i 0x09#8 tag ⟨.badValue, false, .claims (claimTable s) []⟩)) ∧
     (set ≠ [] → ∃ t listed, exec (.release src tag set) s =
         .next (t.post src i ⟨.ok, false, .claims (claimTable t) listed⟩) ∧
       (∀ r, r ∈ listed ↔ r ∈ set ∧ s.owner r ≠ some src) ∧
       (∀ r, t.claim r = if r ∈ set ∧ s.owner r = some src then ⟨none, none⟩ else s.claim r) ∧
       (let ended := fun (u : State) (r : Resource) =>
          let v :=
            match r with
            | .motor m => afterEvents (stopAction m .released (u.motor m).config.lossAction u)
            | .voice v => fadeStop react v .released u
          react (.claimEnd r .released)
            ((v.setClaim r ⟨none, none⟩).placeBoth (.claimEnd r .released (some src) none v.time))
        t = (allResources.filter fun r => decide (r ∈ set)).foldl
          (fun u r => if u.owner r = some src then ended u r else u) (reserved s src i 0x09#8 tag)) ∧
       Quiet (reserved s src i 0x09#8 tag) (withClaims t s))) ∧
  (∀ (s : State) (src : Source) (i : Fin 8) (tag : Byte) (set : List Resource), Accepts s src i →
     (set = [] → exec (.renew src tag set) s =
       .next (answered s src i 0x0A#8 tag ⟨.badValue, false, .claims (claimTable s) []⟩)) ∧
     (set ≠ [] → ∃ t listed, exec (.renew src tag set) s =
         .next (answered t src i 0x0A#8 tag ⟨.ok, false, .claims (claimTable t) listed⟩) ∧
       (∀ r, r ∈ listed ↔ r ∈ set ∧ s.owner r ≠ some src) ∧
       (∀ r, t.claim r =
         if r ∈ set ∧ s.owner r = some src then
           { s.claim r with lease := (s.claim r).lease.map fun l => { l with remaining := l.period } }
         else s.claim r) ∧ withClaims t s = s))

/-- R164: TAKE gives PROGRAM every resource of its set, whoever owned it, with its own lease, and lists those that
TABLET lost; no other record changes. An empty set is answered BAD_VALUE. What else it changes is the work of stop
actions, fade-stops and reactions. R38, R161, Table 9-2: the resources are taken one at a time, in the order M0 to M5,
V0 to V3. At one that TABLET loses a motor takes HOLD as a stop action with reason TAKEN and a voice a fade-stop with
TAKEN; then the record has its new owner and lease; then CLAIM_END with reason TAKEN is placed on both links; then the
reactions take the event. -/
def Obligations.TakeMovesOwnership : Prop :=
  ∀ (s : State) (i : Fin 8) (tag : Byte) (f : ClaimFields), Accepts s .program i →
    (f.set = [] → exec (.take .program tag f) s =
      .next (answered s .program i 0x0B#8 tag ⟨.badValue, false, .claims (claimTable s) []⟩)) ∧
    (f.set ≠ [] → ∃ t listed, exec (.take .program tag f) s =
        .next (t.post .program i ⟨.ok, leaseClamped .program f.lease, .claims (claimTable t) listed⟩) ∧
      (∀ r, r ∈ listed ↔ r ∈ f.set ∧ s.owner r = some .tablet) ∧
      (∀ r, t.claim r = if r ∈ f.set then ⟨some .program, clampLease .program f.lease⟩ else s.claim r) ∧
      (let new : Claim := ⟨some .program, clampLease .program f.lease⟩
       let lost := fun (u : State) (r : Resource) =>
         let v :=
           match r with
           | .motor m => afterEvents (stopAction m .taken .hold u)
           | .voice v => fadeStop react v .taken u
         react (.claimEnd r .taken)
           ((v.setClaim r new).placeBoth (.claimEnd r .taken (some .tablet) (some .program) v.time))
       t = (allResources.filter fun r => decide (r ∈ f.set)).foldl
         (fun u r => if u.owner r = some .tablet then lost u r else u.setClaim r new)
         (reserved s .program i 0x0B#8 tag)) ∧
      Quiet (reserved s .program i 0x0B#8 tag) (withClaims t s))

/-- R161, R165: LEASE_EXPIRY of a leased resource ends its claim in the order of R161: a motor takes its loss_action as
a stop action with reason LEASE and a voice a fade-stop; then the record is emptied; then CLAIM_END is placed on both
links; then the reactions take the event. No other record changes. Without a lease nothing happens (the model's choice,
log 2). -/
def Obligations.LeaseExpiryEndsClaim : Prop :=
  ∀ (s : State) (r : Resource),
    ((s.claim r).lease = none → exec (.leaseExpiry r) s = .next s) ∧
    ((s.claim r).lease ≠ none → ∃ t u, exec (.leaseExpiry r) s = .next t ∧
      (∀ m, r = .motor m → u = afterEvents (stopAction m .lease (s.motor m).config.lossAction s)) ∧
      (∀ v, r = .voice v → u = fadeStop react v .lease s) ∧
      t = react (.claimEnd r .lease)
        ((u.setClaim r ⟨none, none⟩).placeBoth (.claimEnd r .lease (s.owner r) none u.time)) ∧
      (∀ q, t.claim q = if q = r then ⟨none, none⟩ else s.claim q) ∧ Quiet s (withClaims t s))

/-! ### Motor requests (Chapters 1 and 2) -/

/-- R11, R13: an accepted MOTOR_SET. Each present numeric field is clamped and becomes pending, a present loss_action
becomes pending, and a polarity that differs is taken at once with the history refilled; the lease restarts, the reply
holds the record as the next adoption leaves it, and nothing else changes. A value outside an enumeration is answered
BAD_VALUE, and a differing polarity on a driven motor BUSY, both with no change. -/
def Obligations.MotorSetMakesFieldsPending : Prop :=
  ∀ (s : State) (src : Source) (i : Fin 8) (tag : Byte) (m : MotorId) (f : MotorSetFields), Accepts s src i →
    s.owner (.motor m) = some src →
    let mo := s.motor m
    let p := mo.pendingConfig
    (f.polarity = some .outside ∨ f.lossAction = some .outside →
      exec (.motorSet src tag m.val f) s = .next (answered s src i 0x10#8 tag (Reply.refuse .badValue))) ∧
    (∀ pol, f.polarity = some (.known pol) → f.lossAction ≠ some .outside → pol ≠ mo.config.polarity →
      (mo.state = .running ∨ mo.state = .holding) →
      exec (.motorSet src tag m.val f) s = .next (answered s src i 0x10#8 tag (Reply.refuse .busy))) ∧
    (∀ pol, (f.polarity = some (.known pol) ∨ (f.polarity = none ∧ pol = mo.config.polarity)) →
      f.lossAction ≠ some .outside → (pol = mo.config.polarity ∨ (mo.state ≠ .running ∧ mo.state ≠ .holding)) →
      let new : Motor :=
        { mo with
          config := { mo.config with polarity := pol }
          history := if pol = mo.config.polarity then mo.history else List.replicate 16 mo.position
          pendingConfig :=
            { dutyLimit := taken 0 1000 f.dutyLimit p.dutyLimit
              kp := taken 0 65535 f.kp p.kp
              kv := taken 0 65535 f.kv p.kv
              ki := taken 0 65535 f.ki p.ki
              kf := taken 0 65535 f.kf p.kf
              stallCurrent := taken 100 4000 f.stallCurrent p.stallCurrent
              stallSpeed := taken 1 500 f.stallSpeed p.stallSpeed
              stallTime := taken 50 2000 f.stallTime p.stallTime
              tripCurrent := taken 100 6000 f.tripCurrent p.tripCurrent
              lossAction := (f.lossAction.bind Coded.get?).or p.lossAction } }
      exec (.motorSet src tag m.val f) s =
        .next (answered ((s.setMotor m new).restartLease (.motor m)) src i 0x10#8 tag
          (Reply.ok
            (cut 0 1000 f.dutyLimit || cut 0 65535 f.kp || cut 0 65535 f.kv || cut 0 65535 f.ki || cut 0 65535 f.kf ||
              cut 100 4000 f.stallCurrent || cut 1 500 f.stallSpeed || cut 50 2000 f.stallTime ||
              cut 100 6000 f.tripCurrent)
            (.motorConfig (adopted new.config new.pendingConfig)))))

/-- R4, R6, R12, R43: the control tick of a motor in IDLE, BRAKED or FAULT with nothing pending adopts the pending
configuration, measures the speed from the position and the oldest history entry, appends the position to the history,
stores the current as a magnitude up to 8000 mA, and changes nothing else. R12: adoption: every pending field becomes
the value in force, another field keeps its own. R23: stage 4 activates the head of the queue in IDLE, BRAKED and
HOLDING, with the reference reset to the sampled position in IDLE and BRAKED and kept in HOLDING. A MOVE's target is the
reference moved by its distance, a GOTO's its own position; its direction is the sign of what lies between, +1 with
nothing to travel, and a SPEED segment's the sign of its speed. The segment starts in ACCEL, a HOLD in CRUISE. R34: a
segment whose condition names a channel that is UNMAPPED or LOST ends at once: the tick leaves the motor BRAKED with the
pending segments discarded, and SENSOR_LOST goes to the owner's link and to the reactions. R46, R48: a profile step
keeps the fraction of the reference in 0 to 999 and that of the rate in 0 to 999, and the reference speed within ±4000
when it and the segment's speed are; the reference moves by v_ref for one millisecond, exactly, the fraction included.
-/
def Obligations.TickAtRestMeasures : Prop :=
  (∀ (s : State) (m : MotorId) (isense : Int),
     let mo := s.motor m
     (mo.state = .idle ∨ mo.state = .braked ∨ mo.state = .fault) → mo.queue = [] →
     exec (.controlTick m isense) s = .next
       (s.setMotor m
         { mo with
           config := adopted mo.config mo.pendingConfig
           pendingConfig := .empty
           vmeas := max (-1000000) (min 1000000
             ((Word.diff mo.position (mo.history.headD mo.position) * 125).tdiv 2))
           history := mo.history.tail ++ [mo.position]
           iAvg := min 8000 isense.natAbs })) ∧
  (∀ (c : MotorConfig) (p : PendingConfig),
     adopted c p =
       { dutyLimit := p.dutyLimit.getD c.dutyLimit, kp := p.kp.getD c.kp, kv := p.kv.getD c.kv, ki := p.ki.getD c.ki,
         kf := p.kf.getD c.kf, stallCurrent := p.stallCurrent.getD c.stallCurrent,
         stallSpeed := p.stallSpeed.getD c.stallSpeed, stallTime := p.stallTime.getD c.stallTime,
         tripCurrent := p.tripCurrent.getD c.tripCurrent, polarity := c.polarity,
         lossAction := p.lossAction.getD c.lossAction } ∧
     adopted c PendingConfig.empty = c) ∧
  (∀ (s : State) (m : MotorId) (seg : Segment) (rest : List Segment),
     let mo := s.motor m
     let atRest := mo.state = .idle ∨ mo.state = .braked
     let ref := if atRest then mo.sampled else mo.refPos
     (atRest ∨ mo.state = .holding) → mo.queue = seg :: rest → ¬Gone s seg →
     startStage m s =
       (s.setMotor m
         { mo with
           state := .running, queue := rest, active := some (startedAs seg ref (firstDirection seg ref)), refPos := ref
           refFrac := if atRest then 0 else mo.refFrac
           vRef := if atRest then 0 else mo.vRef
           accFrac := if atRest then 0 else mo.accFrac
           integ := if atRest then 0 else mo.integ }, [])) ∧
  (∀ (s : State) (m : MotorId) (isense : Int) (seg : Segment) (rest : List Segment),
     let mo := s.motor m
     let c := adopted mo.config mo.pendingConfig
     let iAvg := min 8000 isense.natAbs
     let count := if c.tripCurrent < iAvg then mo.overCount + 1 else 0
     let atRest := mo.state = .idle ∨ mo.state = .braked
     (atRest ∨ (mo.state = .holding ∧ count < 2)) → mo.queue = seg :: rest → Gone s seg →
     ∃ t, exec (.controlTick m isense) s = .next (reactAll [.segmentEnd m seg.tag .sensorLost false] t) ∧
       t.motor m =
         resting .braked
           { mo with
             config := c, pendingConfig := .empty
             vmeas := max (-1000000) (min 1000000
               ((Word.diff mo.position (mo.history.headD mo.position) * 125).tdiv 2))
             history := mo.history.tail ++ [mo.position], iAvg := iAvg, active := none, queue := []
             refPos := if atRest then mo.position else mo.refPos
             refFrac := if atRest then 0 else mo.refFrac
             vRef := if atRest then 0 else mo.vRef
             accFrac := if atRest then 0 else mo.accFrac
             integ := if atRest then 0 else mo.integ } ∧
       t.governor.supply (.motor m) = ⟨0, 0⟩ ∧ (∀ r, r ≠ .motor m → t.governor.supply r = s.governor.supply r) ∧
       (∀ k, k ≠ m → t.motor k = s.motor k) ∧
       (∀ src, t.link src = (s.place (s.ownerLink (.motor m))
         (.segmentEnd m seg.tag .sensorLost false mo.position rest.length s.time)).link src) ∧ Quiet s t) ∧
  (∀ (mo : Motor) (a : Active),
     let n := mo.stepReference a
     0 ≤ n.refFrac ∧ n.refFrac < 1000 ∧ 0 ≤ n.accFrac ∧ n.accFrac < 1000 ∧
     (mo.vRef.natAbs ≤ 4000 → a.seg.speed.natAbs ≤ 4000 → 0 ≤ mo.accFrac → n.vRef.natAbs ≤ 4000) ∧
     ∃ k : Int, n.refPos = mo.refPos + BitVec.ofInt 32 k ∧ 1000 * k + n.refFrac = mo.refFrac + n.vRef)

/-- R15: MOTOR_READ, from either source whatever the owner, changes nothing but its reply slot and reports the fields of
Table 1-5 as they stand; a number that names no motor is answered BAD_VALUE (R10). R70: BUDGET_READ, from either source,
changes nothing but its reply slot and reports Table 4-3 as it stands: the budget, the sum and the free current, the ten
grants and asks, the starved motors, and the voices granted less than they asked. R94: CHAIN_READ, from either source,
changes nothing but its reply slot and reports the chain as it stands; a port out of range is BAD_VALUE. R103:
MODULE_READ, from either source, changes nothing but its reply slot and reports the record as it stands with the channel
that the module backs, or none; a port or a position out of range, or without a record, is BAD_VALUE. R111:
CHANNEL_READ, from either source, changes nothing but its reply slot and reports the channel as it stands, its age, and
in WAITING the channels ahead of it, in COPYING the copy's progress; a number out of range is BAD_VALUE. -/
def Obligations.ReadsReportTheStateAsItStands : Prop :=
  (∀ (s : State) (src : Source) (i : Fin 8) (tag : Byte), Accepts s src i →
     (∀ m : MotorId, exec (.motorRead src tag m.val) s = .next (answered s src i 0x11#8 tag
       ⟨.ok, false, .motor
         { state := (s.motor m).state, position := (s.motor m).position, speed := (s.motor m).vmeas,
           current := (s.motor m).iAvg, duty := (s.motor m).uOut, grant := (s.governor.supply (.motor m)).grant,
           starved := (s.motor m).starved, depth := (s.motor m).queue.length }⟩)) ∧
     (∀ n, 6 ≤ n → exec (.motorRead src tag n) s =
       .next (answered s src i 0x11#8 tag (Reply.refuse .badValue)))) ∧
  (∀ (s : State) (src : Source) (i : Fin 8) (tag : Byte), Accepts s src i →
     let g := s.governor
     exec (.budgetRead src tag) s = .next (answered s src i 0x19#8 tag
       ⟨.ok, false, .budget
         { budget := g.budget, used := g.used, free := g.budget - g.used
           grants := allResources.map fun r => (g.supply r).grant
           asks := allResources.map fun r => (g.supply r).ask
           starved := allMotors.filter fun m => (s.motor m).starved
           capped := allVoices.filter fun v => (g.supply (.voice v)).grant < (g.supply (.voice v)).ask }⟩)) ∧
  (∀ (s : State) (src : Source) (i : Fin 8) (tag : Byte), Accepts s src i →
     (∀ p : PortId,
       let c := s.chain p
       exec (.chainRead src tag p.val) s = .next (answered s src i 0x22#8 tag
         ⟨.ok, false, .chain
           { state := c.state, count := c.modules.length, overlong := c.overlong
             modules := c.modules.map fun r => (r.kind, r.model, r.state)
             failedA := c.failedA, failedB := c.failedB, selected := c.selected
             syncPeriod := c.syncPeriod, threshold := c.threshold, sticky := c.sticky
             syncPending := c.syncPending, faultCount := c.faultCount, queued := c.queue.length
             heldAside := decide (c.aside ≠ []) }⟩)) ∧
     (∀ n, 4 ≤ n → exec (.chainRead src tag n) s =
       .next (answered s src i 0x22#8 tag (Reply.refuse .badValue)))) ∧
  (∀ (s : State) (src : Source) (i : Fin 8) (tag : Byte), Accepts s src i →
     (∀ (p : PortId) (k : ModulePos) r, (s.chain p).modules[k.val]? = some r →
       ∃ backing, exec (.moduleRead src tag p.val (k.val + 1)) s =
           .next (answered s src i 0x23#8 tag ⟨.ok, false, .module k r backing⟩) ∧
         (∀ ch, backing = some ch → (s.channel ch).state ≠ .unmapped ∧
           ((s.channel ch).primary = some ⟨p, k⟩ ∨ (s.channel ch).spare = some ⟨p, k⟩)) ∧
         (backing = none → ∀ ch, (s.channel ch).state ≠ .unmapped →
           (s.channel ch).primary ≠ some ⟨p, k⟩ ∧ (s.channel ch).spare ≠ some ⟨p, k⟩)) ∧
     (∀ (p : PortId) (k : ModulePos), (s.chain p).modules.length ≤ k.val →
       exec (.moduleRead src tag p.val (k.val + 1)) s =
         .next (answered s src i 0x23#8 tag (Reply.refuse .badValue))) ∧
     (∀ n k, 4 ≤ n ∨ k = 0 ∨ 4 < k →
       exec (.moduleRead src tag n k) s = .next (answered s src i 0x23#8 tag (Reply.refuse .badValue)))) ∧
  (∀ (s : State) (src : Source) (i : Fin 8) (tag : Byte), Accepts s src i →
     (∀ ch : ChannelId,
       let c := s.channel ch
       exec (.channelRead src tag ch.val) s = .next (answered s src i 0x2A#8 tag
         ⟨.ok, false, .channel
           { channel := c, age := if c.stamp = 0 then 0 else (s.time - c.stamp).toNat
             ahead :=
               if c.state = .waiting then
                 some (allChannels.filter fun k => k < ch && (s.channel k).state = .waiting).length
               else none
             progress :=
               if c.state = .copying then s.copy.map fun x => (x.written, decide (x.written = 4)) else none }⟩)) ∧
     (∀ n, 16 ≤ n → exec (.channelRead src tag n) s =
       .next (answered s src i 0x2A#8 tag (Reply.refuse .badValue))))

/-- R14: an accepted ZERO sets the position, refills the history with it and clears the measured speed; in HOLDING the
reference moves by the same wrapped difference. In RUNNING it is answered BUSY. Nothing else changes, but the lease
restarts. R7, R18: CLEAR_FAULT takes a motor from FAULT to IDLE with its entry effects, the grant released, and is
answered BAD_VALUE in every other state. The position, the history, the reference, the integrator, the pending
configuration and the queue stay. -/
def Obligations.ZeroAndClearFault : Prop :=
  (∀ (s : State) (src : Source) (i : Fin 8) (tag : Byte) (m : MotorId) (value : Word), Accepts s src i →
     s.owner (.motor m) = some src →
     let mo := s.motor m
     (mo.state = .running →
       exec (.zero src tag m.val value) s = .next (answered s src i 0x12#8 tag (Reply.refuse .busy))) ∧
     (mo.state ≠ .running →
       exec (.zero src tag m.val value) s = .next (answered
         ((s.setMotor m
             { mo with
               position := value, history := List.replicate 16 value, vmeas := 0
               refPos := if mo.state = .holding then mo.refPos + (value - mo.position) else mo.refPos }).restartLease
           (.motor m)) src i 0x12#8 tag (Reply.ok false .empty)))) ∧
  (∀ (s : State) (src : Source) (i : Fin 8) (tag : Byte) (m : MotorId), Accepts s src i →
     s.owner (.motor m) = some src →
     let mo := s.motor m
     (mo.state ≠ .fault →
       exec (.clearFault src tag m.val) s = .next (answered s src i 0x13#8 tag (Reply.refuse .badValue))) ∧
     (mo.state = .fault →
       exec (.clearFault src tag m.val) s = .next (answered
         (((s.setMotor m
               { mo with
                 state := .idle, u := 0, uLim := 0, uOut := 0, starved := false, limited := .clear, overCount := 0
                 stallMs := 0 }).releaseSupply (.motor m)).restartLease (.motor m))
         src i 0x13#8 tag (Reply.ok false .empty))))

/-- R22: SEG. A segment that fails its checks is BAD_VALUE; in FAULT it is FAULTED; a condition on an UNMAPPED channel
is NO_SOURCE and on a value the channel does not have BAD_VALUE; eight pending segments make it FULL; otherwise it joins
the tail of the queue, and the reply carries the depth. Nothing else changes, but an accepted one restarts the lease.
R20, Table 2-1: a segment is refused for a kind, an end action or a condition outside its enumeration, another presence
bit, a rate of 0, a target missing or beyond its range where the kind needs one or present where it does not, a duration
present where the kind has none, and a channel test with a channel, value index or comparison out of range; and for
nothing else. A checked segment holds the kind, the tag, the target and the end action of the one offered, its speed,
rates and duration in range, and its end condition with the threshold in range; CLAMPED tells that one of them changed.
A HOLD segment ignores its speed and, once neither is 0, its rates: they stay as offered, and CLAMPED does not tell of
them. That the cruise speed keeps its sign is the model's choice (log 14). -/
def Obligations.SegJoinsQueue : Prop :=
  (∀ (s : State) (src : Source) (i : Fin 8) (tag : Byte) (m : MotorId) (r : RawSegment), Accepts s src i →
     s.owner (.motor m) = some src →
     let mo := s.motor m
     let refused := fun st => exec (.seg src tag m.val r) s = .next (answered s src i 0x14#8 tag (Reply.refuse st))
     (checkSegment r = none → refused .badValue) ∧
     (∀ seg clamped, checkSegment r = some (seg, clamped) →
       (mo.state = .fault → refused .faulted) ∧
       (∀ ch idx side th, seg.condition = .channel ch idx side th → mo.state ≠ .fault →
         ((s.channel ch).state = .unmapped → refused .noSource) ∧
         ((s.channel ch).state ≠ .unmapped → (s.channel ch).valueCount ≤ idx.val → refused .badValue)) ∧
       (mo.state ≠ .fault →
         (∀ ch idx side th, seg.condition = .channel ch idx side th →
           (s.channel ch).state ≠ .unmapped ∧ idx.val < (s.channel ch).valueCount) →
         (8 ≤ mo.queue.length → refused .full) ∧
         (mo.queue.length < 8 →
           exec (.seg src tag m.val r) s = .next (answered
             ((s.setMotor m { mo with queue := mo.queue ++ [seg] }).restartLease (.motor m)) src i 0x14#8 tag
             (Reply.ok clamped (.depth (mo.queue.length + 1)))))))) ∧
  (∀ (r : RawSegment),
     let travel := r.kind = .known .move ∨ r.kind = .known .goto
     let bad := r.kind = .outside ∨ r.endAction = .outside ∨ r.otherPresence = true ∨ r.accel = 0 ∨ r.decel = 0 ∨
       (r.kind = .known .move ∧ ¬∃ d, r.target = some d ∧ -10000000 ≤ d ∧ d ≤ 10000000) ∨
       (r.kind = .known .goto ∧ ¬∃ d, r.target = some d ∧ -1000000000 ≤ d ∧ d ≤ 1000000000) ∨
       (¬travel ∧ r.target ≠ none) ∨ (travel ∧ r.duration ≠ none) ∨ r.condition = .outside ∨
       ∃ ch idx side x, r.condition = .channel ch idx side x ∧ (16 ≤ ch ∨ 8 ≤ idx ∨ side = .outside)
     (bad → checkSegment r = none) ∧
     (¬bad → ∃ seg clamped, checkSegment r = some (seg, clamped) ∧
       r.kind = .known seg.kind ∧ r.endAction = .known seg.endAction ∧ seg.tag = r.tag ∧ seg.target = r.target ∧
       (seg.kind ≠ .hold → seg.accel = max 100 (min 40000 r.accel) ∧ seg.decel = max 100 (min 40000 r.decel)) ∧
       (seg.kind = .hold → seg.accel = r.accel ∧ seg.decel = r.decel) ∧
       seg.duration = r.duration.map (fun d => max 1 (min 3600000 d)) ∧
       (seg.kind = .speed → seg.speed = max (-4000) (min 4000 r.speed)) ∧
       (seg.kind = .hold → seg.speed = r.speed) ∧
       (travel → seg.speed =
         if r.speed < 0 then -max 10 (min 4000 (-r.speed)) else max 10 (min 4000 r.speed)) ∧
       (r.condition = .none → seg.condition = .none) ∧ (r.condition = .stall → seg.condition = .stall) ∧
       (∀ (ch : ChannelId) (idx : Fin 8) side x, r.condition = .channel ch.val idx.val (.known side) x →
         seg.condition = .channel ch idx side (max (-1000000000) (min 1000000000 x))) ∧
       (clamped = true ↔ seg.speed ≠ r.speed ∨ seg.accel ≠ r.accel ∨ seg.decel ≠ r.decel ∨ seg.duration ≠ r.duration ∨
         ∃ ch idx side x, r.condition = .channel ch idx side x ∧ (x < -1000000000 ∨ 1000000000 < x))))

/-- R37: HALT applies its action as a stop action with reason HALTED; its reply carries the pending segments discarded,
the tag of the segment ended and the state after, and in FAULT 0, no tag and FAULT. An action outside the enumeration is
BAD_VALUE. That the state after is the one after the reactions of the same moment is the model's choice (log 9). R7, R9,
Table 1-4: a stop action. In FAULT it changes nothing. Otherwise the active and the pending segments are gone, and one
SEGMENT_END event with the reason given is handed for an active segment. R40: its notice goes to the link of the motor's
owner, with the tag, the reason, the live position, the number of segments discarded and the part time; no other notice
is placed. COAST gives IDLE and BRAKE gives BRAKED, each with its entry effects and the grant released unless the motor
was there already. HOLD gives HOLDING: from RUNNING, IDLE and BRAKED with the reference at the position, the integrator
cleared but from RUNNING; from HOLDING with the reference kept. The other motors and everything that is not a notice or
a grant stay. -/
def Obligations.HaltStopsMotor : Prop :=
  (∀ (s : State) (src : Source) (i : Fin 8) (tag : Byte) (m : MotorId), Accepts s src i →
     s.owner (.motor m) = some src →
     let mo := s.motor m
     exec (.halt src tag m.val .outside) s = .next (answered s src i 0x15#8 tag (Reply.refuse .badValue)) ∧
     (∀ a, ∃ t, exec (.halt src tag m.val (.known a)) s = .next t ∧
       let u := afterEvents (stopAction m .halted a (reserved s src i 0x15#8 tag))
       t = (u.restartLease (.motor m)).post src i
         (Reply.ok false
           (if mo.state = .fault then .halted 0 none (u.motor m).state
            else .halted mo.queue.length (mo.active.map fun x => x.seg.tag) (u.motor m).state)) ∧
       Quiet (reserved s src i 0x15#8 tag) u)) ∧
  (∀ (s : State) (m : MotorId) (reason : EndReason) (a : StopAction),
     let mo := s.motor m
     let gone := { mo with active := none, queue := [] }
     let t := (stopAction m reason a s).1
     let rest := fun st =>
       { gone with
         state := st, u := 0, uLim := 0, uOut := 0, starved := false, limited := .clear, overCount := 0
         stallMs := 0 }
     let here := { gone with state := .holding, refPos := mo.position, refFrac := 0, vRef := 0, accFrac := 0 }
     (mo.state = .fault → stopAction m reason a s = (s, [])) ∧
     (mo.state ≠ .fault →
       (stopAction m reason a s).2 =
         (match mo.active with
          | some x => [.segmentEnd m x.seg.tag reason false]
          | none => []) ∧
       t.motor m =
         (match a with
          | .coast => if mo.state = .idle then gone else rest .idle
          | .brake => if mo.state = .braked then gone else rest .braked
          | .hold =>
            if mo.state = .running then here
            else if mo.state = .holding then gone
            else { here with integ := 0, stallMs := 0 }) ∧
       (a = .coast → mo.state ≠ .idle → t.governor.supply (.motor m) = ⟨0, 0⟩) ∧
       (a = .brake → mo.state ≠ .braked → t.governor.supply (.motor m) = ⟨0, 0⟩) ∧
       (∀ r, r ≠ .motor m → t.governor.supply r = s.governor.supply r) ∧
       (∀ k, k ≠ m → t.motor k = s.motor k) ∧
       (∀ src, t.link src =
         (match mo.active with
          | some x => s.place (s.ownerLink (.motor m))
              (.segmentEnd m x.seg.tag reason false mo.position mo.queue.length s.time)
          | none => s).link src)) ∧
     t.voices = s.voices ∧ t.reactions = s.reactions ∧ Quiet s t)

/-! ### Events of a motor port (Chapters 1 to 3) -/

/-- R2: ENCODER_STEP counts by the forward sequence (0,0), (1,0), (1,1), (0,1) of the lines A and B: one step along it
adds 1 under NORMAL and subtracts 1 under REVERSED, one step back the opposite, anything else nothing; the position
wraps. Nothing else changes but the lines as sampled. R1: CARRIER_PERIOD gives the pins of all six ports the drive mode
and duty of their motors: a pulse on PWM A or PWM B by the sign of the bridge duty in RUNNING and HOLDING, both high in
BRAKED, both low in IDLE and FAULT. Nothing else changes. -/
def Obligations.EncoderCountsAndCarrierDrives : Prop :=
  (∀ (s : State) (m : MotorId) (a b : Bool),
     let mo := s.motor m
     let before := s.encoder[m]
     let step : Word :=
       match before.a, before.b, a, b with
       | false, false, true, false => 1
       | true, false, true, true => 1
       | true, true, false, true => 1
       | false, true, false, false => 1
       | false, false, false, true => -1
       | false, true, true, true => -1
       | true, true, true, false => -1
       | true, false, false, false => -1
       | _, _, _, _ => 0
     exec (.encoderStep m a b) s = .next
       { s.setMotor m
           { mo with
             position := if mo.config.polarity = .reversed then mo.position - step else mo.position + step } with
         encoder := s.encoder.set m ⟨a, b⟩ }) ∧
  (∀ s : State, ∃ t, exec .carrierPeriod s = .next t ∧ t = { s with pwm := t.pwm } ∧
     ∀ m : MotorId,
       let mo := s.motor m
       let b := if mo.config.polarity = .reversed then -mo.uOut else mo.uOut
       t.pwm[m] =
         (match mo.state with
          | .idle => ⟨.low, .low⟩
          | .fault => ⟨.low, .low⟩
          | .braked => ⟨.high, .high⟩
          | _ => if 0 < b then ⟨.pulse b.natAbs, .low⟩ else if b < 0 then ⟨.low, .pulse b.natAbs⟩ else ⟨.low, .low⟩))

/-- R43, R52 to R56, R61: the control tick of a HOLDING motor with nothing pending, without over-current and without a
stall being taken: measurement, then the law on the position and speed errors with the integrator frozen in the
direction of the last cut, the clamp to duty_limit, the ask and its grant, the output duty with its flags, and the stall
time. The other resources keep their grants, and nothing else changes. -/
def Obligations.TickHoldingDrives : Prop :=
  ∀ (s : State) (m : MotorId) (isense : Int),
    let mo := s.motor m
    let c := adopted mo.config mo.pendingConfig
    let vmeas := max (-1000000) (min 1000000 ((Word.diff mo.position (mo.history.headD mo.position) * 125).tdiv 2))
    let eP := max (-4096) (min 4096 (Word.diff mo.refPos mo.position))
    let eV := max (-8000) (min 8000 (mo.vRef - vmeas))
    let integ :=
      if (mo.limited = .positive ∧ 0 < eV) ∨ (mo.limited = .negative ∧ eV < 0) then mo.integ
      else max (-2000000) (min 2000000 (mo.integ + eV))
    let u := (c.kp * eP + c.kv * eV + c.ki * integ.tdiv 64 + c.kf * mo.vRef : Int).tdiv 1024
    let uLim := max (-(c.dutyLimit : Int)) (min c.dutyLimit u)
    let ask := uLim.natAbs * c.stallCurrent / 1000
    let g := min ask (s.governor.free + (s.governor.supply (.motor m)).grant)
    let uOut := if g = ask then uLim else uLim.sign * ((g * 1000 / c.stallCurrent : Nat) : Int)
    let stalled := 0 < c.dutyLimit ∧ 9 * c.dutyLimit ≤ 10 * uOut.natAbs ∧ vmeas.natAbs < c.stallSpeed
    mo.state = .holding → mo.active = none → mo.queue = [] → min 8000 isense.natAbs ≤ c.tripCurrent →
    ¬(stalled ∧ c.stallTime ≤ mo.stallMs + 1) →
    exec (.controlTick m isense) s = .next
      ((s.askSupply (.motor m) ask).setMotor m
        { mo with
          config := c, pendingConfig := .empty, vmeas := vmeas, history := mo.history.tail ++ [mo.position]
          iAvg := min 8000 isense.natAbs, overCount := 0, integ := integ, u := u, uLim := uLim, uOut := uOut
          starved := decide (g < ask)
          limited := if uOut = u then .clear else if 0 < u then .positive else .negative
          stallMs := if stalled then mo.stallMs + 1 else 0 })

/-- R44 to R49, Table 3-2: the reference of a profile step. The braking test takes a MOVE or GOTO in ACCEL or CRUISE
whose remaining distance is at most its braking distance to DECEL, or, blending into a head of its direction, to
THROUGH; the speed changes toward its target by a thousandth of accel or decel, the fraction kept, and through 0 first;
the creep floor is 10; ACCEL passes to CRUISE at the target speed; and the reference moves by v_ref for one millisecond.
R5, R12, R43, R52 to R56, R61: the control tick of a RUNNING motor that takes no trip, ends no segment and takes no
stall: adoption and measurement, the profile step, the elapsed duration, then law, ask, grant, output and stall time as
for a HOLDING motor; nothing else changes. R16, R17: a tick of a driven motor that finds the current above trip_current
for the second time in a row takes a trip. R50: a MOVE or GOTO that arrives in DECEL ends with DONE and its end action,
its reference at the target. R24, R31: one that arrives in THROUGH hands over to the head of the queue at its speed: the
head starts from that target, a MOVE or GOTO in the direction of travel, and SEGMENT_END carries BLENDED; where the
head's condition names a channel that is UNMAPPED or LOST it ends at once with SENSOR_LOST, in BRAKED (R34). That the
events of a tick are taken after its last stage is the model's reading (log 9). -/
def Obligations.TickRunningDrives : Prop :=
  (∀ (mo : Motor) (a : Active),
     let travel := a.seg.kind = .move ∨ a.seg.kind = .goto
     let sgn : Int :=
       match a.direction with
       | some .forward => 1
       | some .backward => -1
       | none => 0
     let left : Int :=
       match a.target with
       | some t => Word.diff t mo.refPos * sgn
       | none => 0
     let braking := travel ∧ (a.phase = .accel ∨ a.phase = .cruise) ∧
       left ≤ (mo.vRef * mo.vRef).tdiv (2 * a.seg.decel)
     let headWay : Int :=
       match mo.queue with
       | [] => 0
       | h :: _ =>
         match h.kind with
         | .speed => h.speed
         | .move => h.target.getD 0
         | .goto => Word.diff (BitVec.ofInt 32 (h.target.getD 0)) mo.refPos
         | .hold => 0
     let b : Active :=
       if braking then
         if a.seg.endAction ≠ .blend then { a with phase := .decel }
         else if 0 < headWay * sgn then { a with phase := .through, blend := .blend }
         else { a with phase := .decel, blend := .noBlend }
       else a
     let vt : Int :=
       match a.seg.kind with
       | .hold => 0
       | .speed => if b.phase = .stopping then 0 else a.seg.speed
       | _ => if b.phase = .decel then 0 else a.seg.speed.natAbs * sgn
     let goal := if mo.vRef * vt < 0 then 0 else vt
     let faster := mo.vRef = 0 ∨ (0 < mo.vRef * vt ∧ mo.vRef.natAbs < vt.natAbs)
     let sum : Int := mo.accFrac + (if faster then a.seg.accel else a.seg.decel : Nat)
     let moved := if mo.vRef < goal then min goal (mo.vRef + sum / 1000) else max goal (mo.vRef - sum / 1000)
     let v := if mo.vRef = vt then vt else moved
     let v1 := if travel ∧ sgn ≠ 0 ∧ b.phase = .decel ∧ v * sgn < 10 then 10 * sgn else v
     mo.stepReference a =
       { mo with
         vRef := v1, accFrac := if v = vt then 0 else sum % 1000
         refPos := mo.refPos + BitVec.ofInt 32 ((mo.refFrac + v1) / 1000), refFrac := (mo.refFrac + v1) % 1000
         active :=
           some (if a.seg.kind ≠ .hold ∧ b.phase = .accel ∧ v1 = vt then { b with phase := .cruise } else b) }) ∧
  (∀ (s : State) (m : MotorId) (isense : Int) (a : Active),
     let mo := s.motor m
     let c := adopted mo.config mo.pendingConfig
     let vmeas := max (-1000000) (min 1000000 ((Word.diff mo.position (mo.history.headD mo.position) * 125).tdiv 2))
     let iAvg := min 8000 isense.natAbs
     let count := if c.tripCurrent < iAvg then mo.overCount + 1 else 0
     let n := Motor.stepReference
       { mo with
         config := c, pendingConfig := .empty, vmeas := vmeas, history := mo.history.tail ++ [mo.position]
         iAvg := iAvg, overCount := count } a
     mo.state = .running → mo.active = some a → count < 2 →
     ∀ b, n.active = some b →
     let travel := b.seg.kind = .move ∨ b.seg.kind = .goto
     let left : Int :=
       match b.target, b.direction with
       | some t, some .forward => Word.diff t n.refPos
       | some t, some .backward => -Word.diff t n.refPos
       | _, _ => 0
     let runs := b.seg.duration.isSome ∧ b.phase ≠ .stopping
     let elapsed := if ¬travel ∧ runs then b.elapsed + 1 else b.elapsed
     let eP := max (-4096) (min 4096 (Word.diff n.refPos mo.position))
     let eV := max (-8000) (min 8000 (n.vRef - vmeas))
     let integ :=
       if (mo.limited = .positive ∧ 0 < eV) ∨ (mo.limited = .negative ∧ eV < 0) then mo.integ
       else max (-2000000) (min 2000000 (mo.integ + eV))
     let u := (c.kp * eP + c.kv * eV + c.ki * integ.tdiv 64 + c.kf * n.vRef : Int).tdiv 1024
     let uLim := max (-(c.dutyLimit : Int)) (min c.dutyLimit u)
     let ask := uLim.natAbs * c.stallCurrent / 1000
     let g := min ask (s.governor.free + (s.governor.supply (.motor m)).grant)
     let uOut := if g = ask then uLim else uLim.sign * ((g * 1000 / c.stallCurrent : Nat) : Int)
     let stalled := 0 < c.dutyLimit ∧ 9 * c.dutyLimit ≤ 10 * uOut.natAbs ∧ vmeas.natAbs < c.stallSpeed
     ((travel → 0 < left ∨ (b.phase ≠ .decel ∧ b.phase ≠ .through)) →
       (¬travel → if runs then b.elapsed + 1 < b.seg.duration.getD 0
         else ¬(b.seg.kind = .speed ∧ b.phase = .stopping ∧ n.vRef = 0)) →
       ¬(stalled ∧ c.stallTime ≤ mo.stallMs + 1) →
       exec (.controlTick m isense) s = .next
         ((s.askSupply (.motor m) ask).setMotor m
           { n with
             active := some { b with elapsed := elapsed }, integ := integ, u := u, uLim := uLim, uOut := uOut
             starved := decide (g < ask)
             limited := if uOut = u then .clear else if 0 < u then .positive else .negative
             stallMs := if stalled then mo.stallMs + 1 else 0 })) ∧
     (travel → left ≤ 0 → b.phase = .decel → mo.stallMs + 1 < c.stallTime →
       ∃ t, exec (.controlTick m isense) s = .next (reactAll [.segmentEnd m b.seg.tag .done false] t) ∧
         (t.motor m).active = none ∧ (t.motor m).queue = mo.queue ∧ (t.motor m).refPos = b.target.getD n.refPos ∧
         (t.motor m).refFrac = 0 ∧ (t.motor m).vRef = 0 ∧ (t.motor m).accFrac = 0 ∧
         (t.motor m).state =
           (match b.seg.endAction with
            | .coast => .idle
            | .brake => .braked
            | .hold => .holding
            | .blend => .holding) ∧
         (∀ k, k ≠ m → t.motor k = s.motor k) ∧
         (∀ src, t.link src = (s.place (s.ownerLink (.motor m))
           (.segmentEnd m b.seg.tag .done false mo.position 0 s.time)).link src) ∧ Quiet s t) ∧
     (∀ h rest, travel → left ≤ 0 → b.phase = .through → mo.queue = h :: rest →
       let ref := b.target.getD n.refPos
       let blended := s.place (s.ownerLink (.motor m)) (.segmentEnd m b.seg.tag .done true mo.position 0 s.time)
       (¬Gone s h → mo.stallMs + 1 < c.stallTime →
         ∃ t, exec (.controlTick m isense) s = .next (reactAll [.segmentEnd m b.seg.tag .done true] t) ∧
           (t.motor m).active = some (startedAs h ref b.direction) ∧ (t.motor m).queue = rest ∧
           (t.motor m).state = .running ∧ (t.motor m).refPos = ref ∧ (t.motor m).refFrac = 0 ∧
           (t.motor m).vRef = n.vRef ∧ (t.motor m).accFrac = n.accFrac ∧ (∀ k, k ≠ m → t.motor k = s.motor k) ∧
           (∀ src, t.link src = blended.link src) ∧ Quiet s t) ∧
       (Gone s h →
         ∃ t, exec (.controlTick m isense) s = .next (reactAll
             [.segmentEnd m b.seg.tag .done true, .segmentEnd m h.tag .sensorLost false] t) ∧
           t.motor m = resting .braked { n with active := none, queue := [], refPos := ref, refFrac := 0 } ∧
           t.governor.supply (.motor m) = ⟨0, 0⟩ ∧ (∀ k, k ≠ m → t.motor k = s.motor k) ∧
           (∀ src, t.link src = (blended.place (s.ownerLink (.motor m))
             (.segmentEnd m h.tag .sensorLost false mo.position rest.length s.time)).link src) ∧ Quiet s t))) ∧
  (∀ (s : State) (m : MotorId) (isense : Int),
     let mo := s.motor m
     let c := adopted mo.config mo.pendingConfig
     let iAvg := min 8000 isense.natAbs
     let link := s.ownerLink (.motor m)
     let fault : NoticeBody := .motorFault m .trip mo.position iAvg s.time
     (mo.state = .running ∨ mo.state = .holding) → c.tripCurrent < iAvg → 1 ≤ mo.overCount →
     ∃ t es, exec (.controlTick m isense) s = .next (reactAll es t) ∧
       t.motor m =
         { mo with
           config := c, pendingConfig := .empty
           vmeas := max (-1000000) (min 1000000
             ((Word.diff mo.position (mo.history.headD mo.position) * 125).tdiv 2))
           history := mo.history.tail ++ [mo.position], iAvg := iAvg, state := .fault, active := none, queue := []
           u := 0, uLim := 0, uOut := 0, starved := false, limited := .clear, overCount := 0, stallMs := 0 } ∧
       t.governor.supply (.motor m) = ⟨0, 0⟩ ∧ (∀ k, k ≠ m → t.motor k = s.motor k) ∧
       (∀ r, r ≠ .motor m → t.governor.supply r = s.governor.supply r) ∧
       (mo.active = none → es = [] ∧ ∀ src, t.link src = (s.place link fault).link src) ∧
       (∀ a, mo.active = some a → es = [.segmentEnd m a.seg.tag .fault false] ∧
         ∀ src, t.link src =
           ((s.place link (.segmentEnd m a.seg.tag .fault false mo.position mo.queue.length s.time)).place link
             fault).link src) ∧ Quiet s t)

/-- R16, R17, R28: a TRIP of a driven motor ends an active segment with FAULT, discards the pending ones, and takes the
motor to FAULT with its output off and its grant released; MOTOR_FAULT with cause TRIP goes to the owner's link, after
the SEGMENT_END of the segment ended. That the reactions run after both notices is the model's reading (log 9). A motor
that is not driven does not trip (the model's choice, log 2). R35, R36: a STALL of a RUNNING motor ends its segment:
with STALL_OK and its end action when its end condition is the stall, the pending segments staying, and else with
STALLED, in BRAKED with the pending ones discarded. R40: its SEGMENT_END goes to the owner's link, with the tag, the
reason, the position sampled at the latest tick and the number of segments discarded. A motor HOLDING without a segment
goes to BRAKED with MOTOR_FAULT of cause STALL on its owner's link. The stall time is 0 after. A motor that is not
driven does not stall (the model's choice, log 2). -/
def Obligations.TripAndStallEndMotion : Prop :=
  (∀ (s : State) (m : MotorId),
     let mo := s.motor m
     let link := s.ownerLink (.motor m)
     let fault : NoticeBody := .motorFault m .trip mo.sampled mo.iAvg s.time
     (mo.state ≠ .running → mo.state ≠ .holding → exec (.trip m) s = .next s) ∧
     (mo.state = .running ∨ mo.state = .holding → ∃ t es, exec (.trip m) s = .next (reactAll es t) ∧
       t.motor m =
         { mo with
           state := .fault, active := none, queue := [], u := 0, uLim := 0, uOut := 0, starved := false
           limited := .clear, overCount := 0, stallMs := 0 } ∧
       t.governor.supply (.motor m) = ⟨0, 0⟩ ∧ (∀ k, k ≠ m → t.motor k = s.motor k) ∧
       (∀ r, r ≠ .motor m → t.governor.supply r = s.governor.supply r) ∧
       (mo.active = none → es = [] ∧ ∀ src, t.link src = (s.place link fault).link src) ∧
       (∀ a, mo.active = some a → es = [.segmentEnd m a.seg.tag .fault false] ∧
         ∀ src, t.link src =
           ((s.place link (.segmentEnd m a.seg.tag .fault false mo.sampled mo.queue.length s.time)).place link
             fault).link src) ∧ Quiet s t)) ∧
  (∀ (s : State) (m : MotorId),
     let mo := s.motor m
     (mo.state ≠ .running → mo.state ≠ .holding → exec (.stall m) s = .next s) ∧
     (∀ a, mo.state = .running → mo.active = some a → a.seg.condition = .stall →
       ∃ t, exec (.stall m) s = .next (reactAll [.segmentEnd m a.seg.tag .stallOk false] t) ∧
         t.motor m = endedBy a.seg.endAction mo.sampled { mo with stallMs := 0 } ∧
         (a.seg.endAction = .coast ∨ a.seg.endAction = .brake → t.governor.supply (.motor m) = ⟨0, 0⟩) ∧
         (∀ k, k ≠ m → t.motor k = s.motor k) ∧
         (∀ src, t.link src = (s.place (s.ownerLink (.motor m))
           (.segmentEnd m a.seg.tag .stallOk false mo.sampled 0 s.time)).link src) ∧ Quiet s t) ∧
     (∀ a, mo.state = .running → mo.active = some a → a.seg.condition ≠ .stall →
       ∃ t, exec (.stall m) s = .next (reactAll [.segmentEnd m a.seg.tag .stalled false] t) ∧
         t.motor m = resting .braked { mo with active := none, queue := [] } ∧
         t.governor.supply (.motor m) = ⟨0, 0⟩ ∧ (∀ k, k ≠ m → t.motor k = s.motor k) ∧
         (∀ src, t.link src = (s.place (s.ownerLink (.motor m))
           (.segmentEnd m a.seg.tag .stalled false mo.sampled mo.queue.length s.time)).link src) ∧ Quiet s t) ∧
     (mo.state = .holding → mo.active = none → ∃ t, exec (.stall m) s = .next t ∧
       (t.motor m).state = .braked ∧ (t.motor m).stallMs = 0 ∧ (t.motor m).uOut = 0 ∧
       t.governor.supply (.motor m) = ⟨0, 0⟩ ∧ (∀ k, k ≠ m → t.motor k = s.motor k) ∧
       (∀ src, t.link src =
         (s.place (s.ownerLink (.motor m)) (.motorFault m .stall mo.sampled mo.iAvg s.time)).link src) ∧ Quiet s t))

/-- R27, R32: DURATION_EXPIRY of a segment whose duration runs. Unless it is a SPEED segment that blends, it ends with
DONE and its end action, the pending segments staying. A SPEED segment that blends hands over to a head of its
direction; without one it goes on to STOPPING, or ends with DONE when the reference speed is 0 already. R24: the head
starts from the reference as it stands, a MOVE or GOTO in the direction of travel; where its condition names a channel
that is UNMAPPED or LOST it ends at once with SENSOR_LOST (R34). R40: the notice of each end goes to the owner's link,
with the tag, the reason, BLENDED, the position sampled at the latest tick and the number of segments discarded. Where
no duration runs nothing happens (the model's choice, log 2). -/
def Obligations.DurationExpiryEndsSegment : Prop :=
  ∀ (s : State) (m : MotorId),
    let mo := s.motor m
    let runs := fun (a : Active) =>
      (a.seg.kind = .speed ∨ a.seg.kind = .hold) ∧ a.seg.duration ≠ none ∧ a.phase ≠ .stopping
    let placed := fun (t : State) (a : Active) (blended : Bool) => ∀ src, t.link src =
      (s.place (s.ownerLink (.motor m)) (.segmentEnd m a.seg.tag .done blended mo.sampled 0 s.time)).link src
    ((∀ a, mo.active = some a → ¬runs a) → exec (.durationExpiry m) s = .next s) ∧
    (∀ a, mo.state = .running → mo.active = some a → runs a → ¬(a.seg.kind = .speed ∧ a.seg.endAction = .blend) →
      ∃ t, exec (.durationExpiry m) s = .next (reactAll [.segmentEnd m a.seg.tag .done false] t) ∧
        t.motor m = endedBy a.seg.endAction mo.sampled mo ∧
        (a.seg.endAction = .coast ∨ a.seg.endAction = .brake → t.governor.supply (.motor m) = ⟨0, 0⟩) ∧
        (∀ k, k ≠ m → t.motor k = s.motor k) ∧ placed t a false ∧ Quiet s t) ∧
    (∀ a, mo.active = some a → runs a → a.seg.kind = .speed → a.seg.endAction = .blend →
      (¬HeadFollows mo a → mo.vRef ≠ 0 →
        exec (.durationExpiry m) s = .next
          (s.setMotor m
            { mo with
              active := some { a with phase := .stopping, elapsed := a.seg.duration.getD a.elapsed } })) ∧
      (¬HeadFollows mo a → mo.vRef = 0 →
        ∃ t, exec (.durationExpiry m) s = .next (reactAll [.segmentEnd m a.seg.tag .done false] t) ∧
          t.motor m = { mo with active := none, state := .holding, refFrac := 0, vRef := 0, accFrac := 0 } ∧
          (∀ k, k ≠ m → t.motor k = s.motor k) ∧ placed t a false ∧ Quiet s t) ∧
      (∀ h rest, mo.queue = h :: rest → HeadFollows mo a →
        (¬Gone s h →
          ∃ t, exec (.durationExpiry m) s = .next (reactAll [.segmentEnd m a.seg.tag .done true] t) ∧
            t.motor m = { mo with active := some (startedAs h mo.refPos a.direction), queue := rest } ∧
            (∀ k, k ≠ m → t.motor k = s.motor k) ∧ placed t a true ∧ Quiet s t) ∧
        (Gone s h → mo.state = .running →
          ∃ t, exec (.durationExpiry m) s = .next (reactAll
              [.segmentEnd m a.seg.tag .done true, .segmentEnd m h.tag .sensorLost false] t) ∧
            t.motor m = resting .braked { mo with active := none, queue := [] } ∧
            t.governor.supply (.motor m) = ⟨0, 0⟩ ∧ (∀ k, k ≠ m → t.motor k = s.motor k) ∧
            (∀ src, t.link src =
              ((s.place (s.ownerLink (.motor m)) (.segmentEnd m a.seg.tag .done true mo.sampled 0 s.time)).place
                (s.ownerLink (.motor m))
                (.segmentEnd m h.tag .sensorLost false mo.sampled rest.length s.time)).link src) ∧ Quiet s t)))

/-! ### The supply governor (Chapter 4) -/

/-- R65 to R67: BUDGET_SET clamps its value to 500–8000 and sets the budget at once. Where the grants sum to more, each
is scaled down by the same sum, its ask kept; every driven motor that held one and now has less than the ask of its
clamped law value recomputes its duty from it (R57): the duty that the grant pays for, with the sign of the law value,
starved, and limited by that sign; every voice that held one recomputes its ceiling, and the reply counts them. Nothing
else changes. R60: an ask is answered with the smaller of itself and the free current plus the grant held; no other
resource changes, and the sum of the grants stays within the budget. -/
def Obligations.BudgetSetScalesGrants : Prop :=
  (∀ (s : State) (i : Fin 8) (tag : Byte) (x : Int), Accepts s .program i →
     let b := (max 500 (min 8000 x)).toNat
     let g := s.governor
     let clamped := decide (x < 500 ∨ 8000 < x)
     (g.used ≤ b → exec (.budgetSet .program tag x) s =
       .next (answered { s with governor := { g with budget := b } } .program i 0x18#8 tag
         (Reply.ok clamped (.budgetSet b g.used 0)))) ∧
     (b < g.used → ∃ t, exec (.budgetSet .program tag x) s =
         .next (answered t .program i 0x18#8 tag (Reply.ok clamped (.budgetSet b t.governor.used
           (allResources.filter fun r => 0 < (g.supply r).grant).length))) ∧
       t.governor.budget = b ∧ t.governor.used ≤ b ∧
       (∀ r, t.governor.supply r = ⟨(g.supply r).grant * b / g.used, (g.supply r).ask⟩) ∧
       (∀ m,
         let mo := s.motor m
         let grant := (t.governor.supply (.motor m)).grant
         t.motor m =
           if 0 < (g.supply (.motor m)).grant ∧ (mo.state = .running ∨ mo.state = .holding) ∧
               grant < mo.uLim.natAbs * mo.config.stallCurrent / 1000 then
             { mo with
               uOut := mo.uLim.sign * ((grant * 1000 / mo.config.stallCurrent : Nat) : Int), starved := true
               limited := if 0 < mo.u then .positive else if mo.u < 0 then .negative else .clear }
           else mo) ∧
       (∀ v, t.voice v =
         if 0 < (g.supply (.voice v)).grant then
           { s.voice v with ceiling := (t.governor.supply (.voice v)).grant * 1024 / 120 }
         else s.voice v) ∧
       t = { s with governor := t.governor, motors := t.motors, voices := t.voices })) ∧
  (∀ (g : Governor) (r : Resource) (a : Nat), g.used ≤ g.budget →
     (g.ask r a).supply r = ⟨min a (g.budget - g.used + (g.supply r).grant), a⟩ ∧
     (∀ q, q ≠ r → (g.ask r a).supply q = g.supply q) ∧
     (g.ask r a).budget = g.budget ∧ (g.ask r a).used ≤ g.budget)

/-! ### Chain requests (Chapter 5) -/

/-- R74, R83, R92: CHAIN_RESTART with RESTART, in every chain state, is ACCEPTED and begins a bring-up with RESET_ALL
going out; with OFF it is OK and the chain is OFF with its wire idle. Either way the fault count is 0 and the page-
operation queue is empty, each request of it answered ABORTED, in order and ahead of the reply; every timer of the chain
is stopped, no SYNC is owed and no module waits for its poll; and every module is ABSENT, its settle timer stopped. In
OFF already nothing changes. A port or an option out of range is BAD_VALUE. R74, R82: FAULT_RETRY_TIMER of a chain in
FAULT whose retry timer runs begins a bring-up and keeps the fault count; where none runs nothing happens (the model's
choice, log 2). R96: a change of a chain's state places CHAIN_STATE with the state left and the state entered, the cause
and the chain as it stands after, on both links, and then hands its event to the reactions. R74, R92, R104: a bring-up,
and OFF, make every module that is not ABSENT so, each with its notice, in position order; then the chain's state
changes with the cause; then one module report names what changed. -/
def Obligations.BringUpBegins : Prop :=
  (∀ (s : State) (i : Fin 8) (tag : Byte) (p : PortId), Accepts s .program i →
     let c := s.chain p
     let start := reserved s .program i 0x20#8 tag
     let worked := fun (u : State) =>
       (u.chain p).faultCount = 0 ∧ (u.chain p).queue = [] ∧ (u.chain p).aside = [] ∧ Steady start u ∧
       ∀ src, (start.link src).waiting ++ abortedReplies start src c.queue <+: (u.link src).waiting
     (∃ u, exec (.chainRestart .program tag p.val (.known .restart)) s =
         .next (u.post .program i ⟨.accepted, false, .empty⟩) ∧
       Stopped .reset (some .resetAll) c (u.chain p) ∧ worked u ∧
       ∃ x, u = handOutFrom p (enterBringUp p .request [] x) ∧
         x.chain p = { c with inFlight := none, queue := [], aside := [], faultCount := 0 }) ∧
     (c.state = .off → exec (.chainRestart .program tag p.val (.known .off)) s =
       .next (answered s .program i 0x20#8 tag (Reply.ok false .empty))) ∧
     (c.state ≠ .off → ∃ u, exec (.chainRestart .program tag p.val (.known .off)) s =
         .next (u.post .program i (Reply.ok false .empty)) ∧
       Stopped .off none c (u.chain p) ∧ worked u ∧
       ∃ x, u = handOutFrom p (enterOff p x) ∧
         x.chain p = { c with inFlight := none, queue := [], aside := [], faultCount := 0 }) ∧
     exec (.chainRestart .program tag p.val .outside) s =
       .next (answered s .program i 0x20#8 tag (Reply.refuse .badValue)) ∧
     (∀ n o, 4 ≤ n → exec (.chainRestart .program tag n o) s =
       .next (answered s .program i 0x20#8 tag (Reply.refuse .badValue)))) ∧
  (∀ (s : State) (p : PortId),
     let c := s.chain p
     (c.state = .fault → c.retryLeft ≠ none → ∃ t, exec (.faultRetryTimer p) s = .next t ∧
       Stopped .reset (some .resetAll) c (t.chain p) ∧ (t.chain p).faultCount = c.faultCount ∧ Steady s t ∧
       t = handOutFrom p (enterBringUp p .retry [] s)) ∧
     (c.state ≠ .fault ∨ c.retryLeft = none → exec (.faultRetryTimer p) s = .next s)) ∧
  (∀ (s : State) (p : PortId) (st : ChainState) (cause : ChainCause),
     let c := s.chain p
     changeChain p st cause s = react (.chainState p st)
       ((s.setChain p { c with state := st }).placeBoth
         (.chainState p c.state st cause c.modules.length c.overlong c.failedA c.failedB c.selected c.sticky s.time))) ∧
  (∀ (s : State) (p : PortId) (cause : ChainCause) (before : List ModulePos),
     let c := s.chain p
     let held := allPositions.filter fun k => (c.modules[k.val]?).any fun r => decide (r.state ≠ .absent)
     let gone := fun (cause : ModuleCause) (call : Option Call) =>
       held.foldl (fun u k => changeModule p k cause (fun r => { r with state := .absent, settleLeft := 0 }) u)
         (s.setChain p
           { c with
             inFlight := call, syncPending := false, round := [], trainTries := 0, found := [], callTries := 0
             configTodo := [], restLeft := none, trainLeft := none, probeLeft := none, retryLeft := none
             syncLeft := none })
     enterBringUp p cause before s =
       moduleReport p (before ++ held) (changeChain p .reset cause (gone .bringUp (some .resetAll))) ∧
     enterOff p s = moduleReport p held (changeChain p .off .request (gone .off none)) ∧
     ∃ x, restartChain p cause before s = enterBringUp p cause before x ∧
       x.chain p = { c with inFlight := none, queue := [], aside := [] })

/-- R93: CHAIN_SET. A divider for a position without a record, or a port out of range, is BAD_VALUE. Otherwise each
present setting is clamped and taken at once, a divider with the poll countdown of its record; the reply holds the
settings, and nothing else changes. -/
def Obligations.ChainSetTakesSettings : Prop :=
  ∀ (s : State) (i : Fin 8) (tag : Byte) (p : PortId) (f : ChainSetFields), Accepts s .program i →
    let c := s.chain p
    (∀ n, 4 ≤ n → exec (.chainSet .program tag n f) s =
      .next (answered s .program i 0x21#8 tag (Reply.refuse .badValue))) ∧
    ((∃ k : ModulePos, dividerField f k ≠ none ∧ c.modules.length ≤ k.val) →
      exec (.chainSet .program tag p.val f) s =
        .next (answered s .program i 0x21#8 tag (Reply.refuse .badValue))) ∧
    ((∀ k : ModulePos, dividerField f k ≠ none → k.val < c.modules.length) →
      ∃ modules, exec (.chainSet .program tag p.val f) s =
        .next (answered
          (s.setChain p
            { c with
              syncPeriod := (taken 10 100 f.syncPeriod none).getD c.syncPeriod
              threshold := (taken 16 255 f.threshold none).getD c.threshold
              sticky := f.sticky.getD c.sticky, modules := modules })
          .program i 0x21#8 tag
          (Reply.ok
            (cut 10 100 f.syncPeriod || cut 16 255 f.threshold || cut 1 25 f.divider1 || cut 1 25 f.divider2 ||
              cut 1 25 f.divider3 || cut 1 25 f.divider4)
            (.chainSettings
              { syncPeriod := (taken 10 100 f.syncPeriod none).getD c.syncPeriod
                threshold := (taken 16 255 f.threshold none).getD c.threshold
                sticky := f.sticky.getD c.sticky, dividers := modules.map ModuleRecord.divider }))) ∧
        modules.length = c.modules.length ∧
        ∀ (k : ModulePos) r, c.modules[k.val]? = some r →
          modules[k.val]? = some
            (match dividerField f k with
             | some x => { r with divider := (max 1 (min 25 x)).toNat, countdown := (max 1 (min 25 x)).toNat }
             | none => r))

/-- R88, R89: a page request, write or read. A port outside 0 to 3, a position outside 1 to 4 or a page outside 0 to 3
is BAD_VALUE. On a chain that is neither ACTIVE nor DEGRADED, or on an ABSENT module, it is BUSY; without a record
BAD_VALUE; with eight operations queued FULL. Otherwise it keeps its slot, its reply is deferred, and its operation
joins the queue's tail: it stays there while the wire is busy, and goes out at once on an idle wire with nothing ahead
of it. -/
def Obligations.PageRequestsQueue : Prop :=
  ∀ (s : State) (src : Source) (i : Fin 8) (tag : Byte) (p : PortId) (k : ModulePos) (page : Page)
    (data : Option PageBytes), Accepts s src i → (data ≠ none → src = .program) →
    let c := s.chain p
    let kind : Byte := if data.isSome then 0x24#8 else 0x25#8
    let request := fun (port pos number : Nat) =>
      match data with
      | some bytes => exec (.modulePageWrite src tag port pos number bytes) s
      | none => exec (.modulePageRead src tag port pos number) s
    let run := request p.val (k.val + 1) (pageNumber page)
    let op : PageOp := ⟨k, page, data, 0, .request src i⟩
    let queued := { c with queue := c.queue ++ [op] }
    (∀ port pos number, (4 ≤ port ∨ pos = 0 ∨ 5 ≤ pos ∨ 4 ≤ number) →
      request port pos number = .next (answered s src i kind tag (Reply.refuse .badValue))) ∧
    (pageNumber .format = 0 ∧ pageNumber .range = 1 ∧ pageNumber .rate = 2 ∧ pageNumber .start = 3) ∧
    (c.live = false → run = .next (answered s src i kind tag (Reply.refuse .busy))) ∧
    (c.live = true → c.modules.length ≤ k.val →
      run = .next (answered s src i kind tag (Reply.refuse .badValue))) ∧
    (∀ r, c.live = true → c.modules[k.val]? = some r → r.state = .absent →
      run = .next (answered s src i kind tag (Reply.refuse .busy))) ∧
    (∀ r, c.live = true → c.modules[k.val]? = some r → r.state ≠ .absent →
      (8 ≤ c.queue.length → run = .next (answered s src i kind tag (Reply.refuse .full))) ∧
      (c.queue.length < 8 → ∃ t, run = .next t ∧ (t.link src).slots[i] = some ⟨kind, tag⟩ ∧
        Steady (reserved s src i kind tag) t ∧
        (c.inFlight ≠ none → QueuesOnly queued (t.chain p)) ∧
        (c.inFlight = none → c.syncPending = false → c.round = [] → c.queue = [] →
          QueuesOnly
            { queued with
              inFlight := some (match data with
                | some bytes => .setPage k page bytes
                | none => .getPage k page) } (t.chain p))) ∧
      (c.queue.length < 8 → c.inFlight ≠ none → (∀ q, (s.chain q).wants = false) →
        run = .next (reserved (s.setChain p queued) src i kind tag)))

/-! ### Chain timers and calls (Chapter 5) -/

/-- R75, R76: RESET_REST_EXPIRY of a chain in RESET takes it to TRAIN, with the wire marks cleared unless the sticky
flag is set, and its first attempt going out; nothing happens where no rest runs (the model's choice, log 2). R96:
beside the chain only its CHAIN_STATE notice, on both links, and the reactions to its event follow. R76, R81:
TRAIN_RETRY_TIMER sends the next attempt of a chain in TRAIN, counted, and EMPTY_PROBE_TIMER a probe of a chain in EMPTY
with the next one 200 ms ahead; each on an idle wire, and nothing else changes. Where the timer does not run, or the
wire is busy, nothing happens (the model's choice, log 2). R78, R98: the record settled at a position. The same kind and
model keep the shadow pages and the divider; another record is new, with START of zeros and every other page awaiting
its read. Either way the module is CONFIGURING with no error charged and no sample. -/
def Obligations.ChainTimersSendTrains : Prop :=
  (∀ (s : State) (p : PortId),
     let c := s.chain p
     (c.state ≠ .reset ∨ c.restLeft = none → exec (.resetRestExpiry p) s = .next s) ∧
     (c.state = .reset → c.restLeft ≠ none → ∃ t, exec (.resetRestExpiry p) s = .next t ∧
       t.chain p =
         { c with
           state := .train, inFlight := some .train, trainTries := 1, trainLeft := some 5, restLeft := none
           failedA := c.sticky && c.failedA, failedB := c.sticky && c.failedB } ∧
       (∀ q, q ≠ p → t.chain q = s.chain q) ∧ Quiet { s with chains := t.chains } t ∧
       (let u := s.setChain p
          { c with
            restLeft := none, trainTries := 0, failedA := c.sticky && c.failedA, failedB := c.sticky && c.failedB }
        let left : NoticeBody := .chainState p .reset .train .step c.modules.length c.overlong
          (c.sticky && c.failedA) (c.sticky && c.failedB) c.selected c.sticky s.time
        t = (react (.chainState p .train) ((u.setChain p { u.chain p with state := .train }).placeBoth left)).setChain p
          (t.chain p)))) ∧
  (∀ (s : State) (p : PortId),
     let c := s.chain p
     (c.state = .train → c.trainLeft ≠ none → c.inFlight = none → exec (.trainRetryTimer p) s = .next
       (s.setChain p { c with inFlight := some .train, trainTries := c.trainTries + 1, trainLeft := some 5 })) ∧
     (c.state ≠ .train ∨ c.trainLeft = none ∨ c.inFlight ≠ none → exec (.trainRetryTimer p) s = .next s) ∧
     (c.state = .empty → c.probeLeft ≠ none → c.inFlight = none → exec (.emptyProbeTimer p) s = .next
       (s.setChain p { c with inFlight := some .train, probeLeft := some 200 })) ∧
     (c.state ≠ .empty ∨ c.probeLeft = none ∨ c.inFlight ≠ none → exec (.emptyProbeTimer p) s = .next s)) ∧
  (∀ (old : Option ModuleRecord) (x : Identity),
     let r := settledRecord old x
     r.kind = x.kind ∧ r.model = x.model ∧ r.valueCount = x.valueCount ∧ r.settleTime = x.settleTime ∧
     r.state = .configuring ∧ r.bucket = 0 ∧ r.misses = 0 ∧ r.failing = false ∧ r.last = none ∧
     (∀ o, old = some o → o.kind = x.kind → o.model = x.model →
       r.format = o.format ∧ r.range = o.range ∧ r.rate = o.rate ∧ r.start = o.start ∧ r.divider = o.divider) ∧
     ((∀ o, old = some o → o.kind ≠ x.kind ∨ o.model ≠ x.model) →
       r.format = none ∧ r.range = none ∧ r.rate = none ∧ r.start = some (Vector.replicate 8 0) ∧ r.divider = 1))

/-- R84, R85: SYNC_TIMER_EXPIRY of a live chain starts the timer again at the sync period and sets sync pending; on an
idle wire the SYNC goes out at once with the part time as its stamp, and the new round and countdowns follow. Another
chain whose wire is busy, or that is not live, changes in its queues alone. Where no sync timer runs nothing happens
(the model's choice, log 2). R72, R75, R85: CALL_SENT ends the transaction of a RESET_ALL, whose wire then rests 20 ms,
or of a SYNC, after which a live chain polls the first module of its round that is not ABSENT; of another call, or with
none, it does nothing (the model's choice, log 2). R85, R87, R89: an idle wire is handed to a SYNC that is owed, else to
the poll of the next module of the round, else to the operation at the head of the queue; a module that is ABSENT is
passed over, and an operation on it ends FAILED without a try. -/
def Obligations.SyncTimerAndCallSent : Prop :=
  (∀ (s : State) (p : PortId),
     let c := s.chain p
     (c.live = false ∨ c.syncLeft = none → exec (.syncTimerExpiry p) s = .next s) ∧
     (c.live = true → c.syncLeft ≠ none → ∃ t, exec (.syncTimerExpiry p) s = .next t ∧ Steady s t ∧
       (c.inFlight ≠ none → QueuesOnly { c with syncPending := true, syncLeft := some c.syncPeriod } (t.chain p)) ∧
       (c.inFlight = none → QueuesOnly
         { c with
           syncPending := false, syncLeft := some c.syncPeriod, inFlight := some (.sync s.time), roundStamp := s.time
           modules := c.modules.map fun r =>
             if r.state = .absent then r
             else if r.countdown ≤ 1 then { r with countdown := r.divider }
             else { r with countdown := r.countdown - 1 }
           round := allPositions.filter fun k =>
             match c.modules[k.val]? with
             | some r => r.state ≠ .absent ∧ r.countdown ≤ 1
             | none => false } (t.chain p)) ∧
       ∀ q, q ≠ p → ((s.chain q).inFlight ≠ none ∨ (s.chain q).live = false) →
         QueuesOnly (s.chain q) (t.chain q))) ∧
  (∀ (s : State) (p : PortId),
     let c := s.chain p
     (c.inFlight = some .resetAll → exec (.callSent p) s =
       .next (s.setChain p { c with inFlight := none, restLeft := some 20 })) ∧
     (∀ stamp k rest, c.inFlight = some (.sync stamp) → c.live = true → c.syncPending = false → c.round = k :: rest →
       present c k = true → ∃ t, exec (.callSent p) s = .next t ∧ Steady s t ∧
         QueuesOnly { c with inFlight := some (.poll k), round := rest } (t.chain p)) ∧
     (∀ stamp, c.inFlight = some (.sync stamp) → c.syncPending = false → c.round = [] → c.queue = [] →
       (∀ q, (s.chain q).wants = false) →
       exec (.callSent p) s = .next (s.setChain p { c with inFlight := none })) ∧
     ((c.inFlight ≠ some .resetAll ∧ ∀ stamp, c.inFlight ≠ some (.sync stamp)) → exec (.callSent p) s = .next s)) ∧
  (∀ (s : State) (p : PortId),
     let c := s.chain p
     let there := fun (k : ModulePos) => ∃ r, c.modules[k.val]? = some r ∧ r.state ≠ .absent
     (c.syncPending = true → ∃ d, handOut p s = s.setChain p d ∧ d.inFlight = some (.sync s.time) ∧
       d.roundStamp = s.time ∧ d.syncPending = false ∧ d.queue = c.queue) ∧
     (∀ k rest, c.syncPending = false → c.round = k :: rest →
       (there k → handOut p s = s.setChain p { c with round := rest, inFlight := some (.poll k) }) ∧
       (¬there k → handOut p s = s.setChain p { c with round := rest, inFlight := none })) ∧
     (∀ op rest, c.syncPending = false → c.round = [] → c.queue = op :: rest →
       (there op.pos → handOut p s = s.setChain p
         { c with
           inFlight := some (match op.bytes with
             | some bytes => .setPage op.pos op.page bytes
             | none => .getPage op.pos op.page) }) ∧
       (¬there op.pos → handOut p s = endHead p op .failed s)) ∧
     (c.syncPending = false → c.round = [] → c.queue = [] → handOut p s = s))

/-- R72, R76, R77: TRANSACTION_END of a TRAIN attempt that every usable wire has answered, one of them with the training
pattern, takes the chain to ROLLCALL: a wire without the pattern is marked failed, wire A is selected if it has it, else
wire B, and ROLLCALL(1) goes out. While no wire has answered and one is usable, the transaction goes on. R72, R86, R100,
R102: TRANSACTION_END of a POLL that the selected wire has answered with a good sample of the round: the module's misses
are 0, its bucket is 1 lower, and its last sample is the one answered; unless the answer carries BEYOND, its state
stays. R71 to R73: the result of a transaction. The copy on the selected wire decides when it is good, else a good one
on the other wire, which swaps the wires; else the result is BAD_CHECK when a copy came, and NO_ANSWER when none did.
TRANSACTION_END ends a transaction, as ANSWER_TIMEOUT does, once every usable wire has a copy or, but for TRAIN, the
selected one a good copy; otherwise it goes on. A wire swap marks the selected wire failed and selects the other, and
takes an ACTIVE chain to DEGRADED. R83, R86, R102: a good POLL is charged first and its FAILING change reported; then
its sample, when it bears the round's stamp, is the module's last and goes to the channel map; or, where it carries
BEYOND, the sample comes before the restart. That order is the model's reading (logs 11 and 20). -/
def Obligations.TransactionEndTakesAnswers : Prop :=
  (∀ (s : State) (p : PortId) (a b : WireAnswer),
     let c := s.chain p
     let goodA := !c.failedA && decide (a = .complete true .training)
     let goodB := !c.failedB && decide (b = .complete true .training)
     (c.inFlight = some .train → (c.failedA = false ∨ c.failedB = false) →
       exec (.transactionEnd p .silent .silent) s = .next s) ∧
     (c.state = .train → c.inFlight = some .train → (goodA || goodB) = true →
       (c.failedA = true ∨ a ≠ .silent) → (c.failedB = true ∨ b ≠ .silent) →
       ∃ t, exec (.transactionEnd p a b) s = .next t ∧ Steady s t ∧
         QueuesOnly
           { c with
             state := .rollcall, inFlight := some (.rollcall 0), callTries := 0, found := [], overlong := false
             trainLeft := none, failedA := c.failedA || !goodA, failedB := c.failedB || !goodB
             selected := if goodA then .retA else .retB } (t.chain p))) ∧
  (∀ (s : State) (p : PortId) (k : ModulePos) (r : ModuleRecord) (values : List Half) (beyond : Bool),
     let c := s.chain p
     let answer : WireAnswer := .complete true (.sample (k.val + 1) c.roundStamp values beyond)
     c.inFlight = some (.poll k) → c.modules[k.val]? = some r → r.state ≠ .absent →
     values.length = r.valueCount → c.failedWire c.selected = false →
     ∃ t r', exec (.transactionEnd p (if c.selected = .retA then answer else .silent)
         (if c.selected = .retB then answer else .silent)) s = .next t ∧ Steady s t ∧
       (t.chain p).modules[k.val]? = some r' ∧ r'.misses = 0 ∧ r'.bucket = r.bucket - 1 ∧
       r'.last = some ⟨values, c.roundStamp⟩ ∧ (beyond = false → r'.state = r.state)) ∧
  (∀ (s : State) (p : PortId) (call : Call) (a b : WireAnswer),
     let c := s.chain p
     let x := outcome s p call a b
     let other : Wire := if c.selected = .retA then .retB else .retA
     (∀ y, GoodCopy c call a b c.selected y → x = .answered y false) ∧
     (∀ y, (∀ z, ¬GoodCopy c call a b c.selected z) → GoodCopy c call a b other y → x = .answered y true) ∧
     ((∀ w z, ¬GoodCopy c call a b w z) →
       x = .failed (if copyOn c a b .retA = .silent ∧ copyOn c a b .retB = .silent then .noAnswer else .badCheck)) ∧
     ((c.inFlight = none ∨ c.inFlight = some .resetAll ∨ ∃ stamp, c.inFlight = some (.sync stamp)) →
       exec (.transactionEnd p a b) s = .next s ∧ exec (.answerTimeout p a b) s = .next s) ∧
     (c.inFlight = some call → call ≠ .resetAll → (∀ stamp, call ≠ .sync stamp) →
       let ends := (∀ w, c.failedWire w = true ∨ copyOn c a b w ≠ .silent) ∨
         (call ≠ .train ∧ ∃ y, GoodCopy c call a b c.selected y)
       (ends → exec (.transactionEnd p a b) s = exec (.answerTimeout p a b) s) ∧
       (¬ends → exec (.transactionEnd p a b) s = .next s))) ∧
  (∀ (s : State) (p : PortId),
     let c := s.chain p
     let t := s.setChain p
       (match c.selected with
        | .retA => { c with failedA := true, selected := .retB }
        | .retB => { c with failedB := true, selected := .retA })
     swapWire p s = if c.state = .active then changeChain p .degraded .wireFailed t else t) ∧
  (∀ (s : State) (p : PortId) (k : ModulePos) (a b : WireAnswer) (pos : Nat) (stamp : Word) (values : List Half)
     (beyond swap : Bool) (r : ModuleRecord),
     let c := s.chain p
     let x := outcome s p (.poll k) a b
     c.inFlight = some (.poll k) → x = .answered (.sample pos stamp values beyond) swap → c.modules[k.val]? = some r →
     let r1 := chargedRecord c.threshold .success r
     let charged := (afterResult p x s).setModule p k r1
     let told := chargeNotice p k r r1 charged
     let sampled := fun (u : State) =>
       if stamp = c.roundStamp then
         let y := { r1 with last := some ⟨values, stamp⟩ }
         channelSample ⟨p, k⟩ y ⟨values, stamp⟩ (u.setModule p k y)
       else u
     exec (.answerTimeout p a b) s = .next (handOutFrom p
       (if beyond = true ∧ c.overlong = false ∧ k.val + 1 = c.modules.length then
          restartChain p .extended [] (sampled charged)
        else sampled (moduleReport p told.2 told.1))))

/-- R72, R76 to R78, R81, R86, R100: ANSWER_TIMEOUT: with nothing heard, a failed POLL, and a probe. The eighth TRAIN
attempt without a pattern takes the chain to EMPTY at its own outcome (the model's reading, log 13), and an earlier one
leaves it in TRAIN; a ROLLCALL(1) that none answers takes it to EMPTY with no record; a POLL that none answers is a miss
of its module: the bucket 8 higher and the misses 1 higher, each at its bound, and at the fourth miss the module is
ABSENT. R71, R73, R86, R100: a POLL answered without a good copy fails with BAD_CHECK: the bucket is 8 higher, and
neither the misses nor the state of the module changes. Any failed POLL is charged to its module, with the notice of an
absence or of a change of FAILING alone and what an absence brings, and is not repeated. R81: a probe of a chain in
EMPTY that brings the training pattern on a usable wire begins a bring-up; without it the chain stays in EMPTY as it is.
It changes no mark. -/
def Obligations.AnswerTimeoutTakesFailures : Prop :=
  (∀ (s : State) (p : PortId),
    let c := s.chain p
    let run := exec (.answerTimeout p .silent .silent) s
    (c.inFlight = some .train → c.state = .train → 8 ≤ c.trainTries → ∃ t, run = .next t ∧ Steady s t ∧
      (t.chain p).state = .empty ∧ (t.chain p).inFlight = none ∧ (t.chain p).probeLeft = some 200 ∧
      (t.chain p).modules = c.modules) ∧
    (c.inFlight = some .train → c.state = .train → c.trainTries < 8 → ∃ t, run = .next t ∧ Steady s t ∧
      QueuesOnly { c with inFlight := none } (t.chain p)) ∧
    (c.inFlight = some (.rollcall 0) → c.state = .rollcall → ∃ t, run = .next t ∧ Steady s t ∧
      (t.chain p).state = .empty ∧ (t.chain p).modules = [] ∧ (t.chain p).probeLeft = some 200) ∧
    (∀ k r, c.inFlight = some (.poll k) → c.modules[k.val]? = some r → r.state ≠ .absent → r.misses ≤ 3 →
      ∃ t r', run = .next t ∧ Steady s t ∧ (t.chain p).modules[k.val]? = some r' ∧
        r'.bucket = min 255 (r.bucket + 8) ∧ r'.misses = r.misses + 1 ∧
        (r.misses < 3 → r'.state = r.state) ∧ (r.misses = 3 → r'.state = .absent))) ∧
  (∀ (s : State) (p : PortId) (k : ModulePos) (a b : WireAnswer) (r : ModuleRecord),
     let c := s.chain p
     let call : Call := .poll k
     c.inFlight = some call → c.modules[k.val]? = some r → (∀ w z, ¬GoodCopy c call a b w z) →
     (copyOn c a b .retA ≠ .silent ∨ copyOn c a b .retB ≠ .silent) → r.state ≠ .absent → r.misses < 4 →
     ∃ t r', exec (.answerTimeout p a b) s = .next t ∧ Steady s t ∧ (t.chain p).modules[k.val]? = some r' ∧
       r'.bucket = min 255 (r.bucket + 8) ∧ r'.misses = r.misses ∧ r'.state = r.state) ∧
  (∀ (s : State) (p : PortId) (k : ModulePos) (a b : WireAnswer) (r : ModuleRecord) (o : TransactionOutcome),
     let c := s.chain p
     c.inFlight = some (.poll k) → outcome s p (.poll k) a b = .failed o → c.modules[k.val]? = some r →
     let r1 := chargedRecord c.threshold o r
     let gone := r1.state = .absent ∧ r.state ≠ .absent
     let charged := (s.setChain p { c with inFlight := none }).setModule p k r1
     let told := chargeNotice p k r r1 (if r.state = .ready ∧ gone then staleServed p k charged else charged)
     exec (.answerTimeout p a b) s = .next (handOutFrom p (afterAbsence p (decide gone) told.2 told.1))) ∧
  (∀ (s : State) (p : PortId) (a b : WireAnswer),
     let c := s.chain p
     let good := (c.failedA = false ∧ a = .complete true .training) ∨ (c.failedB = false ∧ b = .complete true .training)
     let idle := s.setChain p { c with inFlight := none }
     c.inFlight = some .train → c.state = .empty →
     (good → exec (.answerTimeout p a b) s = .next (handOutFrom p (enterBringUp p .probe [] idle))) ∧
     (¬good → exec (.answerTimeout p a b) s = .next (handOutFrom p idle)))

/-- R77, R78: the outcomes of a try of ROLLCALL(k). A good answer adds its module to those found and sends the next
call, but with LAST or at position 4 ends the rollcall, OVERLONG set where position 4 is not LAST; a missing answer ends
it, in EMPTY without records when none was found; a bad one is tried again, and the third takes the chain to FAULT. The
end settles the records, with a notice each and one report, and takes the chain to CONFIG, whose page transactions are
each module's FORMAT, RANGE and RATE, read where the page awaits its read and written otherwise, and then START. R79,
R80: the outcomes of a try of CONFIG. A page read is stored, a START written takes its module to SETTLING, its countdown
at its divider, with its report, and the next transaction goes out; after the last the chain is DEGRADED with a wire
marked failed and ACTIVE otherwise, a SYNC owed, the sync timer at the sync period and every countdown at its divider;
the third failed try takes the chain to FAULT. R82: FAULT counts up to 4 and starts the retry timer while the count is 3
or less. R89, R90, R102: the outcomes of a try of a page operation. A success is charged; a write sets the shadow page
and takes a READY module to SETTLING, or starts the settle timer of a SETTLING one again, unreported; then the operation
leaves the queue, at which a copy write held aside joins it, and its reply is OK, with the bytes of a read. A failed try
is charged and stays at the head with one try more, and the third ends the operation in FAILED. A copy write is told to
the copy engine in place of a reply. The order of notice, reply and report is the model's reading (log 11). -/
def Obligations.RollcallConfigAndPageOutcomes : Prop :=
  ∀ (s : State) (p : PortId) (call : Call) (a b : WireAnswer), (s.chain p).inFlight = some call →
    let x := outcome s p call a b
    let w := afterResult p x s
    let c := w.chain p
    let ends := fun (t : State) => exec (.answerTimeout p a b) s = .next (handOutFrom p t)
    let still := fun (d : Chain) =>
      { d with
        inFlight := none, syncPending := false, round := [], trainTries := 0, found := [], callTries := 0
        configTodo := [], restLeft := none, trainLeft := none, probeLeft := none, retryLeft := none, syncLeft := none }
    let faulted := fun (cause : ChainCause) => changeChain p .fault cause (w.setChain p
      { still c with
        faultCount := min 4 (c.faultCount + 1), retryLeft := if c.faultCount < 3 then some 500 else none })
    let firstCall := fun (d : Chain) => d.configTodo.head?.map fun op =>
      if op.write then
        Call.setPage op.pos op.page
          (((d.modules[op.pos.val]?).bind fun r => shadow r op.page).getD (Vector.replicate 8 0))
      else .getPage op.pos op.page
    let pageCall := (∃ k page bytes, call = .setPage k page bytes) ∨ ∃ k page, call = .getPage k page
    let stored := fun (r : ModuleRecord) (page : Page) (bytes : PageBytes) =>
      match page with
      | .format => { r with format := some bytes }
      | .range => { r with range := some bytes }
      | .rate => { r with rate := some bytes }
      | .start => { r with start := some bytes }
    (∀ k, call = .rollcall k →
      let ended := fun (found : List Identity) (overlong : Bool) =>
        let records := found.mapIdx fun i y => settledRecord c.modules[i]? y
        let todo := allPositions.flatMap fun k =>
          match records[k.val]? with
          | some r =>
            [⟨k, .format, r.format.isSome⟩, ⟨k, .range, r.range.isSome⟩, ⟨k, .rate, r.rate.isSome⟩, ⟨k, .start, true⟩]
          | none => []
        let v := (allPositions.filter fun k => k.val < records.length).foldl
          (fun u k => moduleNotice p k .absent .rollcall u)
          (w.setChain p
            { c with modules := records, found := [], callTries := 0, configTodo := todo, overlong := overlong })
        let t := changeChain p .config .step v
        moduleReport p (allPositions.filter fun k => k.val < c.modules.length || k.val < records.length)
          (t.setChain p { t.chain p with inFlight := firstCall (t.chain p) })
      (∀ pos kind model n settle last swap, x = .answered (.rollcall pos kind model n settle last) swap →
        let found := c.found ++ [⟨kind, model, n, settle⟩]
        (∀ j : ModulePos, last = false → j.val = k.val + 1 → ends (w.setChain p
          { c with found := found, inFlight := some (.rollcall j), callTries := 0 })) ∧
        (last = true ∨ k = 3 → ends (ended found (c.overlong || (decide (k = 3) && !last))))) ∧
      (x = .failed .noAnswer →
        (k = 0 → ends (moduleReport p (allPositions.filter fun j => j.val < c.modules.length)
          (changeChain p .empty .noModule (w.setChain p { still c with modules := [], probeLeft := some 200 })))) ∧
        (k ≠ 0 → ends (ended c.found c.overlong))) ∧
      (x = .failed .badCheck →
        (c.callTries < 2 → ends (w.setChain p
          { c with inFlight := some (.rollcall k), callTries := c.callTries + 1 })) ∧
        (2 ≤ c.callTries → ends (faulted .rollcallFailed)))) ∧
    (∀ op rest, pageCall → (s.chain p).state = .config → c.configTodo = op :: rest →
      let next := fun (u : State) =>
        let d := { u.chain p with configTodo := (u.chain p).configTodo.tail, callTries := 0 }
        match firstCall d with
        | some y => u.setChain p { d with inFlight := some y }
        | none => changeChain p (if d.failedA || d.failedB then .degraded else .active) .step (u.setChain p
            { d with
              syncPending := true, syncLeft := some d.syncPeriod
              modules := d.modules.map fun r => { r with countdown := r.divider } })
      (∀ pos n bytes swap r, x = .answered (.pageAnswer pos n bytes) swap → w.module p op.pos = some r →
        ends (next (w.setModule p op.pos (stored r op.page bytes)))) ∧
      (∀ pos n swap r, x = .answered (.pageAck pos n) swap → w.module p op.pos = some r →
        (op.page ≠ .start → ends (next w)) ∧
        (op.page = .start → ends (moduleReport p [op.pos]
          (next (enterSettling p op.pos .start (w.setModule p op.pos { r with countdown := r.divider })))))) ∧
      (∀ o, x = .failed o →
        (c.callTries < 2 → ends (w.setChain p { c with inFlight := some call, callTries := c.callTries + 1 })) ∧
        (2 ≤ c.callTries → ends (faulted .pageFailed)))) ∧
    (∀ op rest r, pageCall → (s.chain p).state ≠ .config → c.queue = op :: rest → w.module p op.pos = some r →
      let leave := fun (u : State) (reply : Reply) (done : Bool) =>
        let d := u.chain p
        let room := 8 - d.queue.tail.length
        let v := u.setChain p { d with queue := d.queue.tail ++ d.aside.take room, aside := d.aside.drop room }
        match op.origin with
        | .request src slot => v.post src slot reply
        | .copy => copyWriteEnded done v
        | .orphan => v
      let r1 := chargedRecord c.threshold .success r
      (∀ y swap bytes, x = .answered y swap → op.bytes = some bytes →
        let r2 := stored r1 op.page bytes
        let r3 := if r.state = .settling then { r2 with settleLeft := r2.settleTime } else r2
        let told := chargeNotice p op.pos r r3 (w.setModule p op.pos r3)
        (r.state = .ready → ends (moduleReport p [op.pos]
          (leave (enterSettling p op.pos .pageWrite (w.setModule p op.pos r2)) (Reply.ok false .empty) true))) ∧
        (r.state ≠ .ready → ends (moduleReport p told.2 (leave told.1 (Reply.ok false .empty) true)))) ∧
      (∀ pos n bytes swap, x = .answered (.pageAnswer pos n bytes) swap → op.bytes = none →
        let r2 := stored r1 op.page bytes
        let told := chargeNotice p op.pos r r2 (w.setModule p op.pos r2)
        ends (moduleReport p told.2 (leave told.1 (Reply.ok false (.page op.page bytes)) true))) ∧
      (∀ o, x = .failed o →
        let q1 := chargedRecord c.threshold o r
        let gone := q1.state = .absent ∧ r.state ≠ .absent
        let charged := w.setModule p op.pos q1
        let v := if r.state = .ready ∧ gone then staleServed p op.pos charged else charged
        let tried :=
          if op.tries < 2 then v.setChain p { v.chain p with queue := { op with tries := op.tries + 1 } :: rest }
          else leave v (Reply.refuse .failed) false
        let told := chargeNotice p op.pos r q1 tried
        ends (afterAbsence p (decide gone) told.2 told.1)))

/-- R99, R100: SETTLE_EXPIRY makes a SETTLING module READY, and MISSES_ABSENT a SETTLING or READY module of a live chain
ABSENT; of a module in another state, or without a record, nothing (the model's choice, log 2). R100, R101: an outcome
charged to a module that is not ABSENT: a success lowers the bucket by 1, not below 0, and clears the misses; a failure
raises the bucket by 8, not above 255, and a missing answer the misses by 1; FAILING is set at the threshold and cleared
below half of it. An ABSENT module is charged no further, and at four misses a module becomes ABSENT. R99, R104, R110: a
change of a module places MODULE_STATE with its record as it stands after, on both links; a module that leaves READY
makes the channel that it serves no longer fresh; and one that enters SETTLING is READY at once when its settle time is
0. R104: a charged outcome that changes the state or FAILING places one notice. R83: at an absence an ACTIVE chain
becomes DEGRADED, and a chain whose every module is ABSENT restarts; the report names what changed. The order of these
is the model's reading (log 12). That MISSES_ABSENT charges no outcome is the model's choice (log 39). -/
def Obligations.ModuleEventsChangeState : Prop :=
  (∀ (s : State) (p : PortId) (k : ModulePos),
     let c := s.chain p
     (∀ r, c.modules[k.val]? = some r → r.state = .settling → ∃ t r', exec (.settleExpiry p k) s = .next t ∧
       Steady s t ∧ (t.chain p).modules[k.val]? = some r' ∧ r'.state = .ready ∧ r'.settleLeft = 0) ∧
     ((∀ r, c.modules[k.val]? = some r → r.state ≠ .settling) → exec (.settleExpiry p k) s = .next s) ∧
     (∀ r, c.modules[k.val]? = some r → c.live = true → (r.state = .settling ∨ r.state = .ready) →
       ∃ t r', exec (.missesAbsent p k) s = .next t ∧ Steady s t ∧ (t.chain p).modules[k.val]? = some r' ∧
         r'.state = .absent ∧ r'.settleLeft = 0) ∧
     ((c.live = false ∨ ∀ r, c.modules[k.val]? = some r → r.state ≠ .settling ∧ r.state ≠ .ready) →
       exec (.missesAbsent p k) s = .next s)) ∧
  (∀ (threshold : Nat) (r : ModuleRecord),
     let good := chargeModule threshold .success r
     let bad := chargeModule threshold .badCheck r
     let miss := chargeModule threshold .noAnswer r
     good.bucket = r.bucket - 1 ∧ good.misses = 0 ∧
     bad.bucket = min 255 (r.bucket + 8) ∧ bad.misses = r.misses ∧
     miss.bucket = min 255 (r.bucket + 8) ∧ miss.misses = min 4 (r.misses + 1) ∧
     ∀ x ∈ [good, bad, miss],
       (r.failing = false → (x.failing = true ↔ threshold ≤ x.bucket)) ∧
       (r.failing = true → (x.failing = false ↔ x.bucket < threshold / 2)) ∧
       x.state = r.state ∧ x.format = r.format ∧ x.range = r.range ∧ x.rate = r.rate ∧ x.start = r.start ∧
       x.last = r.last) ∧
  (∀ (threshold : Nat) (o : TransactionOutcome) (r : ModuleRecord),
     chargedRecord threshold o r =
       if r.state = .absent then r
       else if 4 ≤ (chargeModule threshold o r).misses then
         { chargeModule threshold o r with state := .absent, settleLeft := 0 }
       else chargeModule threshold o r) ∧
  (∀ (s : State) (p : PortId) (k : ModulePos) (r r1 : ModuleRecord) (left : ModuleState) (cause : ModuleCause)
     (f : ModuleRecord → ModuleRecord), s.module p k = some r →
     let changed := s.setModule p k (f r)
     moduleNotice p k left cause s =
       s.placeBoth (.moduleState p k r.kind r.model left r.state cause r.failing r.bucket r.misses s.time) ∧
     changeModule p k cause f s = moduleNotice p k r.state cause
       (if r.state = .ready ∧ (f r).state ≠ .ready then staleServed p k changed else changed) ∧
     (let t := changeModule p k cause (fun x => { x with state := .settling, settleLeft := x.settleTime }) s
      enterSettling p k cause s =
        if r.settleTime = 0 then changeModule p k .settled (fun x => { x with state := .ready, settleLeft := 0 }) t
        else t) ∧
     chargeNotice p k r1 r s =
       (if r.state = .absent ∧ r1.state ≠ .absent then (moduleNotice p k r1.state .misses s, [k])
        else if r.failing ≠ r1.failing then
          (moduleNotice p k r.state (if r.failing then .failingSet else .failingCleared) s, [k])
        else (s, [])) ∧
     ((s.chain p).live = true → (r.state = .settling ∨ r.state = .ready) → exec (.missesAbsent p k) s =
       .next (handOutFrom p (afterAbsence p true [k]
         (changeModule p k .misses (fun x => { x with state := .absent, settleLeft := 0, misses := 4 }) s))))) ∧
  (∀ (s : State) (p : PortId) (k : ModulePos),
     let t := staleServed p k s
     t = { s with channels := t.channels } ∧
     ∀ ch,
       let c := s.channel ch
       let serving := match c.serving with
         | .primary => c.primary
         | .spare => c.spare
       t.channel ch = if serving = some ⟨p, k⟩ then { c with fresh := false, staleAt := none } else c) ∧
  (∀ (s : State) (p : PortId) (ks : List ModulePos),
     let t := if (s.chain p).state = .active then changeChain p .degraded .moduleAbsent s else s
     afterAbsence p true ks s =
       (if ∀ r ∈ (s.chain p).modules, r.state = .absent then restartChain p .allAbsent ks t else moduleReport p ks t) ∧
     afterAbsence p false ks s = moduleReport p ks s)

/-- R112, R113, R118, Table 6-5: one mapped channel judged against its modules as they stand: its freshness (R110), the
state it enters with its notice, POOR, the serving slot, the loss handed when it enters LOST, and the failover that
begins or ends. R104, R112: a module report judges every mapped channel that names a reported module, in channel number
order; that an engine freed inside a report takes the next channel at that turn is the model's choice (log 41). R114,
R115: a free engine takes the lowest-numbered channel that waits: it is COPYING, its copy set is the four pages of the
serving module, and the FORMAT write is handed to the target's chain, at the tail of its queue, or held aside while that
is full; without all four pages the channel is LOST and the engine goes on. A busy engine takes none. R115, R117: a
write done hands the next page, START the last; a write failed ends the copy in LOST, and the writes of the ended copy
stay where they wait, their outcomes discarded. R99, R104, R116: SETTLE_EXPIRY of a SETTLING module makes it READY,
places its notice, and hands a report of it, at which a copy completes whose START is written. -/
def Obligations.ModuleReportsJudgeChannels : Prop :=
  (∀ (s : State) (ch : ChannelId),
     let c := s.channel ch
     let record := fun (x : Option ModuleName) => x.bind fun x => s.module x.port x.pos
     let name := match c.serving with
       | .primary => c.primary
       | .spare => c.spare
     let serving := record name
     let other := record (match c.serving with
       | .primary => c.spare
       | .spare => c.primary)
     let usable := fun (r : Option ModuleRecord) => r.any fun x =>
       decide (x.kind = c.kind ∧ c.valueCount ≤ x.valueCount ∧ (x.state = .settling ∨ x.state = .ready))
     let falls := fun (r : Option ModuleRecord) => !usable r || r.any ModuleRecord.failing
     let healthy := fun (r : Option ModuleRecord) => !falls r && r.any fun x => decide (x.state = .ready)
     let fresh : Bool := match name with
       | none => true
       | some x => (serving.any fun r => decide (r.state = .ready)) &&
         decide ((s.chain x.port).state = .active ∨ (s.chain x.port).state = .degraded)
     let stale := { c with fresh := false, staleAt := none }
     let c1 := if fresh then c else stale
     let lost := { stale with state := .lost, poor := false }
     let stays := judgeChannel ch s = s.setChannel ch c1
     (c.state = .unmapped → stays) ∧
     (c.state = .single →
       (usable serving = false → judgeChannel ch s = channelLoss ch .loss (channelEntered s ch .servingLost lost)) ∧
       (usable serving = true → falls serving = true → c.poor = false →
         judgeChannel ch s = channelEntered s ch .poorSet { c1 with poor := true }) ∧
       (falls serving = false → c.poor = true →
         judgeChannel ch s = channelEntered s ch .poorCleared { c1 with poor := false }) ∧
       (usable serving = true → falls serving = c.poor → stays)) ∧
     (c.state = .redundant ∨ c.state = .exposed →
       (falls serving = true → healthy other = true →
         judgeChannel ch s = runEngine 16 (channelEntered s ch .servingFailed { stale with state := .waiting })) ∧
       (falls serving = true → healthy other = false →
         judgeChannel ch s = channelLoss ch .loss (channelEntered s ch .servingLost lost)) ∧
       (falls serving = false → c.state = .redundant → healthy other = false →
         judgeChannel ch s = channelEntered s ch .otherUnhealthy { c1 with state := .exposed }) ∧
       (falls serving = false → c.state = .exposed → healthy other = true →
         judgeChannel ch s = channelEntered s ch .otherHealthy { c1 with state := .redundant }) ∧
       (falls serving = false → (c.state = .redundant ↔ healthy other = true) → stays)) ∧
     (c.state = .waiting →
       (falls other = true → judgeChannel ch s = channelLoss ch .loss (channelEntered s ch .targetLost lost)) ∧
       (falls other = false → stays)) ∧
     (c.state = .copying →
       (falls other = true → judgeChannel ch s =
         runEngine 16 (channelLoss ch .loss (channelEntered (freeEngine s) ch .targetLost lost))) ∧
       (∀ k, s.copy = some k → k.written = 4 → healthy other = true → judgeChannel ch s =
         runEngine 16
           { channelEntered s ch .copyDone
               { stale with
                 state := if healthy serving then .redundant else .exposed
                 serving := match c.serving with
                   | .primary => .spare
                   | .spare => .primary } with
             copy := none }) ∧
       (falls other = false → (healthy other = false ∨ ∀ k, s.copy = some k → k.written ≠ 4) → stays)) ∧
     (c.state = .lost →
       let first := healthy (record c.primary)
       let second := healthy (record c.spare)
       ((first || second) = true → judgeChannel ch s =
         channelEntered s ch .recovered
           { c1 with
             serving := if first then .primary else .spare
             state := if c.spare = none then .single else if first && second then .redundant else .exposed }) ∧
       ((first || second) = false → stays))) ∧
  (∀ (s : State) (p : PortId) (ks : List ModulePos),
     moduleReport p ks s = allChannels.foldl (fun t ch =>
       if (t.channel ch).state ≠ .unmapped ∧
           ∃ k ∈ ks, (t.channel ch).primary = some ⟨p, k⟩ ∨ (t.channel ch).spare = some ⟨p, k⟩ then judgeChannel ch t
       else t) s) ∧
  (∀ s : State,
     let handed := fun (u : State) (x : ModuleName) (page : Page) (bytes : PageBytes) =>
       let q := u.chain x.port
       let op : PageOp := ⟨x.pos, page, some bytes, 0, .copy⟩
       u.setChain x.port
         (if q.queue.length < 8 then { q with queue := q.queue ++ [op] } else { q with aside := q.aside ++ [op] })
     let takes := fun (x : ModuleName) => ((s.chain x.port).state = .active ∨ (s.chain x.port).state = .degraded) ∧
       ∃ r, s.module x.port x.pos = some r ∧ r.state ≠ .absent
     let target := fun (ch : ChannelId) =>
       match (s.channel ch).serving with
       | .primary => (s.channel ch).spare
       | .spare => (s.channel ch).primary
     let lost := fun (ch : ChannelId) =>
       { s.channel ch with state := .lost, fresh := false, staleAt := none, poor := false }
     (s.copy ≠ none ∨ (∀ ch, (s.channel ch).state ≠ .waiting) → runEngine 16 s = s) ∧
     (∀ ch, s.copy = none → (s.channel ch).state = .waiting → (∀ k, k < ch → (s.channel k).state ≠ .waiting) →
       let served := (match (s.channel ch).serving with
         | .primary => (s.channel ch).primary
         | .spare => (s.channel ch).spare).bind fun x => s.module x.port x.pos
       (∀ r f g h i x, served = some r → r.format = some f → r.range = some g → r.rate = some h → r.start = some i →
         target ch = some x → takes x →
         runEngine 16 s = handed
           (channelEntered { s with copy := some ⟨ch, f, g, h, i, 0⟩ } ch .copyStarted
             { s.channel ch with state := .copying, fresh := false, staleAt := none }) x .format f) ∧
       ((∀ r, served = some r → r.format = none ∨ r.range = none ∨ r.rate = none ∨ r.start = none) →
         runEngine 16 s = runEngine 15 (channelLoss ch .loss (channelEntered s ch .copyFailed (lost ch))))) ∧
     (s.copy = none → ∀ done, copyWriteEnded done s = s) ∧
     (∀ k, s.copy = some k →
       let further := { s with copy := some { k with written := k.written + 1 } }
       (∀ x, target k.channel = some x → takes x →
         (k.written = 0 → copyWriteEnded true s = handed further x .range k.range) ∧
         (k.written = 1 → copyWriteEnded true s = handed further x .rate k.rate) ∧
         (k.written = 2 → copyWriteEnded true s = handed further x .start k.start)) ∧
       (k.written = 3 → copyWriteEnded true s = further) ∧
       copyWriteEnded false s =
         runEngine 16 (channelLoss k.channel .loss
           (channelEntered (freeEngine s) k.channel .copyFailed (lost k.channel)))) ∧
     (let ended := fun (op : PageOp) => if op.origin = .copy then { op with origin := .orphan } else op
      let t := freeEngine s
      t.copy = none ∧
      (∀ p, t.chain p =
        { s.chain p with queue := (s.chain p).queue.map ended, aside := (s.chain p).aside.map ended }) ∧
      t = { s with copy := none, chains := t.chains })) ∧
  (∀ (s : State) (p : PortId) (k : ModulePos) (r : ModuleRecord), s.module p k = some r → r.state = .settling →
     let t := moduleReport p [k]
       ((s.setModule p k { r with state := .ready, settleLeft := 0 }).placeBoth
         (.moduleState p k r.kind r.model .settling .ready .settled r.failing r.bucket r.misses s.time))
     exec (.settleExpiry p k) s = .next (handOutFrom p t) ∧
     ((∀ q, (t.chain q).wants = false) → exec (.settleExpiry p k) s = .next t))

/-! ### Channels (Chapter 6) -/

/-- R106: MAP_SET. The refusals in order: a number out of range or a den of 0 is BAD_VALUE; a channel in WAITING or
COPYING BUSY; a module without a record, a spare equal to the primary or of another kind BAD_VALUE; a module that backs
another channel IN_USE. Otherwise the channel holds its modules, the primary's kind, the smaller value count, the scale
clamped, and no sample. A single mapping is SINGLE, POOR while its primary is FAILING, or LOST; a pair is served by its
primary, else by its spare, whichever is usable and not FAILING first, REDUNDANT while the other is healthy and EXPOSED
otherwise, or LOST. The notice MAPPED follows, and for LOST the loss handed to motors and watches. Nothing else changes.
That the serving slot of a pair set LOST is PRIMARY is the model's choice (log 36). -/
def Obligations.MapSetMapsChannel : Prop :=
  (∀ (s : State) (i : Fin 8) (tag : Byte) (f : MapFields), Accepts s .program i →
     (16 ≤ f.channel ∨ 4 ≤ f.primaryPort ∨ f.primaryPos = 0 ∨ 4 < f.primaryPos ∨ f.den = 0 ∨
       (∃ port pos, f.spare = some (port, pos) ∧ (4 ≤ port ∨ pos = 0 ∨ 4 < pos)) →
       exec (.mapSet .program tag f) s = .next (answered s .program i 0x28#8 tag (Reply.refuse .badValue)))) ∧
  (∀ (s : State) (i : Fin 8) (tag : Byte) (f : MapFields) (ch : ChannelId) (primary : ModuleName)
     (spare : Option ModuleName), Accepts s .program i →
     f.channel = ch.val → f.primaryPort = primary.port.val → f.primaryPos = primary.pos.val + 1 →
     f.spare = spare.map (fun n => (n.port.val, n.pos.val + 1)) → f.den ≠ 0 →
     let start := reserved s .program i 0x28#8 tag
     let refused := fun st =>
       exec (.mapSet .program tag f) s = .next (answered s .program i 0x28#8 tag (Reply.refuse st))
     let record := fun (n : ModuleName) => s.module n.port n.pos
     let busy := (s.channel ch).state = .waiting ∨ (s.channel ch).state = .copying
     let taken := fun (n : ModuleName) => ∃ k, k ≠ ch ∧ (s.channel k).state ≠ .unmapped ∧
       ((s.channel k).primary = some n ∨ (s.channel k).spare = some n)
     (busy → refused .busy) ∧
     (¬busy → record primary = none → refused .badValue) ∧
     (∀ n, ¬busy → spare = some n → (record n = none ∨ n = primary) → refused .badValue) ∧
     (∀ n a b, ¬busy → spare = some n → record primary = some a → record n = some b → b.kind ≠ a.kind →
       refused .badValue) ∧
     (∀ a, ¬busy → record primary = some a →
       (∀ n, spare = some n → n ≠ primary ∧ ∃ b, record n = some b ∧ b.kind = a.kind) →
       ((taken primary ∨ ∃ n, spare = some n ∧ taken n) → refused .inUse) ∧
       (¬taken primary → (∀ n, spare = some n → ¬taken n) →
         let b := spare.bind record
         let usable := fun (r : ModuleRecord) => decide (r.state = .settling ∨ r.state = .ready)
         let serves := fun (r : ModuleRecord) => usable r && !r.failing
         let healthy := fun (r : ModuleRecord) => decide (r.state = .ready) && !r.failing
         let entered : ChannelState × ServingSlot :=
           match b with
           | none => (if usable a then .single else .lost, .primary)
           | some b =>
             if serves a then (if healthy b then .redundant else .exposed, .primary)
             else if serves b then (if healthy a then .redundant else .exposed, .spare)
             else (.lost, .primary)
         let count := match b with
           | none => a.valueCount
           | some b => min a.valueCount b.valueCount
         let v := channelEntered start ch .mapped
           { state := entered.1, primary := some primary, spare := spare, kind := a.kind, valueCount := count
             num := f.num, den := max 1 (min 32767 f.den), offset := max (-1000000) (min 1000000 f.offset)
             serving := entered.2, values := Vector.replicate 8 0, fresh := false, stamp := 0
             poor := b.isNone && usable a && a.failing, staleAt := none }
         let reply := Reply.ok (decide (f.den < 1 ∨ 32767 < f.den ∨ f.offset < -1000000 ∨ 1000000 < f.offset))
           (.mapped entered.1 entered.2 count)
         exec (.mapSet .program tag f) s =
           .next ((if entered.1 = .lost then channelLoss ch .loss v else v).post .program i reply))))

/-- R107, R118: MAP_CLEAR. A number out of range is BAD_VALUE, a channel WAITING or COPYING BUSY; an UNMAPPED one is OK,
and no more than its notice CLEARED follows (log 37); another returns to the UNMAPPED values, with its notice, and its
clearing is handed to motors and watches. R34, R107, R113: a loss or clearing handed on: to one motor after the other,
each with its events taken before the next, and then to the watches (the order is the model's choice, log 10). At a
motor whose active segment names the channel the segment ends with SENSOR_LOST, in BRAKED, its grant released and the
pending segments discarded. R125, R126: every watch on the channel with fire-on-loss fires, whatever its state, a level
watch TRIPPED and a CHANGE watch without reference after; the notices come in entry order, and then the events. R33: a
fresh sample at a motor whose active segment has a condition on a value of the channel that is beyond its threshold ends
the segment with CONDITION and its end action, holding at the position; the pending segments stay. R109: a sample of a
module goes to the channel that it backs, which takes it while SINGLE, REDUNDANT or EXPOSED, served by it, and the
module READY: the scaled values, the sample's stamp, fresh, and a stale deadline three poll intervals ahead; and the
sample is delivered to one motor after the other, each with its events taken before the next, and then to the watches
(log 10), which are all evaluated before the notices of those that fired and their events. R110: STALE_DEADLINE clears
the fresh flag of a channel whose deadline runs and stops the deadline; nothing else changes. Where none runs nothing
happens (the model's choice, log 2). R108: a raw value scaled: raw × num div den + offset, within ±1,000,000,000. -/
def Obligations.MapClearAndStaleDeadline : Prop :=
  (∀ (s : State) (i : Fin 8) (tag : Byte), Accepts s .program i →
     let start := reserved s .program i 0x29#8 tag
     (∀ ch : ChannelId,
       let c := s.channel ch
       let unmapped : Channel :=
         { state := .unmapped, primary := none, spare := none, kind := 0, valueCount := 0, num := 1, den := 1
           offset := 0, serving := .primary, values := Vector.replicate 8 0, fresh := false, stamp := 0
           poor := false, staleAt := none }
       (c.state = .waiting ∨ c.state = .copying → exec (.mapClear .program tag ch.val) s =
         .next (answered s .program i 0x29#8 tag (Reply.refuse .busy))) ∧
       (c.state = .unmapped → exec (.mapClear .program tag ch.val) s =
         .next ((channelEntered start ch .cleared c).post .program i (Reply.ok false .empty))) ∧
       (c.state ≠ .waiting → c.state ≠ .copying → c.state ≠ .unmapped → exec (.mapClear .program tag ch.val) s =
         .next ((channelLoss ch .cleared (channelEntered start ch .cleared unmapped)).post .program i
           (Reply.ok false .empty)))) ∧
     (∀ n, 16 ≤ n → exec (.mapClear .program tag n) s =
       .next (answered s .program i 0x29#8 tag (Reply.refuse .badValue)))) ∧
  (∀ (s : State) (ch : ChannelId) (cause : WatchCause),
     channelLoss ch cause s =
       watchLoss ch cause (allMotors.foldl (fun t m => reactAll (lossAtMotor ch m t).2 (lossAtMotor ch m t).1) s) ∧
     Local s (channelLoss ch cause s)) ∧
  (∀ (s : State) (ch : ChannelId) (m : MotorId),
     let mo := s.motor m
     let naming := fun (a : Active) => ∃ idx side x, a.seg.condition = .channel ch idx side x
     ((∀ a, mo.active = some a → ¬naming a) → lossAtMotor ch m s = (s, []) ∧ sampleAtMotor ch m s = (s, [])) ∧
     (∀ a, mo.active = some a → naming a → ∃ t,
       lossAtMotor ch m s = (t, [.segmentEnd m a.seg.tag .sensorLost false]) ∧
       t.motor m =
         (if mo.state = .braked then { mo with active := none, queue := [] }
          else
            { mo with
              state := .braked, active := none, queue := [], u := 0, uLim := 0, uOut := 0, starved := false
              limited := .clear, overCount := 0, stallMs := 0 }) ∧
       (mo.state ≠ .braked → t.governor.supply (.motor m) = ⟨0, 0⟩) ∧
       (∀ r, r ≠ .motor m → t.governor.supply r = s.governor.supply r) ∧ (∀ k, k ≠ m → t.motor k = s.motor k) ∧
       t = { s.place (s.ownerLink (.motor m))
               (.segmentEnd m a.seg.tag .sensorLost false mo.position mo.queue.length s.time) with
             motors := t.motors, governor := t.governor }) ∧
     (∀ a idx side x, mo.active = some a → a.seg.condition = .channel ch idx side x →
       let value := (s.channel ch).values[idx]
       let met := idx.val < (s.channel ch).valueCount ∧
         match side with
         | .above => x < value
         | .below => value < x
       let gone := { mo with active := none }
       let rest := fun st =>
         if mo.state = st then gone
         else
           { gone with
             state := st, u := 0, uLim := 0, uOut := 0, starved := false, limited := .clear, overCount := 0
             stallMs := 0 }
       (¬met → sampleAtMotor ch m s = (s, [])) ∧
       (met → ∃ t, sampleAtMotor ch m s = (t, [.segmentEnd m a.seg.tag .condition false]) ∧
         t.motor m =
           (match a.seg.endAction with
            | .coast => rest .idle
            | .brake => rest .braked
            | _ => { gone with state := .holding, refPos := mo.position, refFrac := 0, vRef := 0, accFrac := 0 }) ∧
         (a.seg.endAction = .coast → mo.state ≠ .idle → t.governor.supply (.motor m) = ⟨0, 0⟩) ∧
         (a.seg.endAction = .brake → mo.state ≠ .braked → t.governor.supply (.motor m) = ⟨0, 0⟩) ∧
         (∀ r, r ≠ .motor m → t.governor.supply r = s.governor.supply r) ∧ (∀ k, k ≠ m → t.motor k = s.motor k) ∧
         t = { s.place (s.ownerLink (.motor m))
                 (.segmentEnd m a.seg.tag .condition false mo.position 0 s.time) with
               motors := t.motors, governor := t.governor }))) ∧
  (∀ (s : State) (ch : ChannelId) (cause : WatchCause),
     let fires := fun (n : EntryId) => (s.watch n).any fun w => decide (w.channel = ch) && w.fireOnLoss
     let fired := allEntries.filter fires
     ∃ t, watchLoss ch cause s = fired.foldl (fun u n => react (.watch n cause) u)
         (placed t (fired.filterMap fun n => (t.watch n).map fun w =>
           (w.creator, .watchFired n ch w.index w.test cause (s.channel ch).values[w.index] w.state w.fires
             (s.channel ch).stamp s.time))) ∧
       (∀ n, t.watch n =
         if fires n then (s.watch n).map fun w =>
           match w.test with
           | .change _ => { w with fires := min 65535 (w.fires + 1), reference := none }
           | _ => { w with fires := min 65535 (w.fires + 1), state := .tripped }
         else s.watch n) ∧ t = { s with watches := t.watches }) ∧
  (∀ (s : State) (ch : ChannelId),
     ((s.channel ch).staleAt ≠ none → exec (.staleDeadline ch) s =
       .next (s.setChannel ch { s.channel ch with fresh := false, staleAt := none })) ∧
     ((s.channel ch).staleAt = none → exec (.staleDeadline ch) s = .next s)) ∧
  (∀ (s : State) (n : ModuleName) (r : ModuleRecord) (x : Sample),
     let names := fun (ch : ChannelId) => (s.channel ch).state ≠ .unmapped ∧
       ((s.channel ch).primary = some n ∨ (s.channel ch).spare = some n)
     ((∀ ch, ¬names ch) → channelSample n r x s = s) ∧
     (∀ ch, names ch → (∀ k, k < ch → ¬names k) →
       let c := s.channel ch
       let serving := match c.serving with
         | .primary => c.primary
         | .spare => c.spare
       let takes := (c.state = .single ∨ c.state = .redundant ∨ c.state = .exposed) ∧ serving = some n ∧
         r.state = .ready
       (¬takes → channelSample n r x s = s) ∧
       (takes → ∃ values : Vector Int 8,
         (∀ i : Fin 8, values[i] =
           if i.val < c.valueCount then
             max (-1000000000) (min 1000000000 (((x.values.getD i.val 0).toInt * c.num).tdiv c.den + c.offset))
           else c.values[i]) ∧
         let t := s.setChannel ch
           { c with
             values := values, stamp := x.stamp, fresh := true
             staleAt := some (s.time + BitVec.ofNat 32 (3 * ((s.chain n.port).syncPeriod * r.divider))) }
         channelSample n r x s = watchSample ch
           (allMotors.foldl (fun u m => reactAll (sampleAtMotor ch m u).2 (sampleAtMotor ch m u).1) t)))) ∧
  (∀ (s : State) (ch : ChannelId),
     let c := s.channel ch
     let tested := fun (n : EntryId) =>
       (s.watch n).bind fun w =>
         if w.channel = ch ∧ w.index.val < c.valueCount then some (evaluateWatch w c.values[w.index]) else none
     let fired := allEntries.filter fun n => (tested n).any Prod.snd
     ∃ t, watchSample ch s = fired.foldl (fun u n => react (.watch n .value) u)
         (placed t (fired.filterMap fun n => (t.watch n).map fun w =>
           (w.creator, .watchFired n ch w.index w.test .value c.values[w.index] w.state w.fires c.stamp s.time))) ∧
       (∀ n, t.watch n = ((tested n).map Prod.fst).or (s.watch n)) ∧ t = { s with watches := t.watches }) ∧
  (∀ (c : Channel) (raw : Half),
     scaled c raw = max (-1000000000) (min 1000000000 ((raw.toInt * c.num).tdiv c.den + c.offset)))

/-! ### Watches and reactions (Chapter 7) -/

/-- R122, R128, R167: WATCH_CLEAR and REACT_CLEAR empty their entry for its creator or for PROGRAM and answer its
counts; an empty entry is OK, an entry out of range BAD_VALUE, and TABLET on a record of PROGRAM NOT_PERMITTED.
REACT_READ, from either source, reports either entry as it stands; one that names neither is BAD_VALUE (Table 0-5).
Nothing else changes. R121: where a record goes. A named entry is taken unless it holds a record of PROGRAM and the
sender is TABLET, which is NOT_PERMITTED; a number out of range is BAD_VALUE; ANY takes the lowest empty entry, or is
FULL. -/
def Obligations.EntriesClearedAndRead : Prop :=
  (∀ (s : State) (src : Source) (i : Fin 8) (tag : Byte), Accepts s src i →
     (∀ n : EntryId,
       (s.watch n = none →
         exec (.watchClear src tag n.val) s = .next (answered s src i 0x31#8 tag (Reply.ok false .empty))) ∧
       (∀ w, s.watch n = some w → src = .tablet → w.creator = .program →
         exec (.watchClear src tag n.val) s = .next (answered s src i 0x31#8 tag (Reply.refuse .notPermitted))) ∧
       (∀ w, s.watch n = some w → (src = .program ∨ w.creator = .tablet) →
         exec (.watchClear src tag n.val) s =
           .next (answered (s.setWatch n none) src i 0x31#8 tag (Reply.ok false (.fires w.fires)))) ∧
       (s.reaction n = none →
         exec (.reactClear src tag n.val) s = .next (answered s src i 0x33#8 tag (Reply.ok false .empty))) ∧
       (∀ r, s.reaction n = some r → src = .tablet → r.creator = .program →
         exec (.reactClear src tag n.val) s = .next (answered s src i 0x33#8 tag (Reply.refuse .notPermitted))) ∧
       (∀ r, s.reaction n = some r → (src = .program ∨ r.creator = .tablet) →
         exec (.reactClear src tag n.val) s =
           .next (answered (s.setReaction n none) src i 0x33#8 tag (Reply.ok false (.counts r.fires r.skips)))) ∧
       exec (.reactRead src tag (.reaction n.val)) s =
         .next (answered s src i 0x34#8 tag (Reply.ok false (.reaction (s.reaction n)))) ∧
       exec (.reactRead src tag (.watch n.val)) s =
         .next (answered s src i 0x34#8 tag (Reply.ok false (.watch (s.watch n))))) ∧
     (∀ n, 16 ≤ n →
       exec (.watchClear src tag n) s = .next (answered s src i 0x31#8 tag (Reply.refuse .badValue)) ∧
       exec (.reactClear src tag n) s = .next (answered s src i 0x33#8 tag (Reply.refuse .badValue)) ∧
       exec (.reactRead src tag (.reaction n)) s = .next (answered s src i 0x34#8 tag (Reply.refuse .badValue)) ∧
       exec (.reactRead src tag (.watch n)) s = .next (answered s src i 0x34#8 tag (Reply.refuse .badValue))) ∧
     exec (.reactRead src tag .outside) s = .next (answered s src i 0x34#8 tag (Reply.refuse .badValue))) ∧
  (∀ (creator : EntryId → Option Source) (src : Source),
     (∀ n, 16 ≤ n → placeEntry allEntries creator src (.number n) = .refused .badValue) ∧
     (∀ n : EntryId, src = .tablet → creator n = some .program →
       placeEntry allEntries creator src (.number n.val) = .refused .notPermitted) ∧
     (∀ n : EntryId, (src = .program ∨ creator n ≠ some .program) →
       placeEntry allEntries creator src (.number n.val) = .at n) ∧
     (∀ n : EntryId, creator n = none → (∀ k, k < n → creator k ≠ none) →
       placeEntry allEntries creator src .any = .at n) ∧
     ((∀ n, creator n ≠ none) → placeEntry allEntries creator src .any = .refused .full))

/-- R121: an accepted WATCH_SET stores an ARMED watch of its sender, with the numbers of its comparison clamped, no
reference and no firing, and answers its entry. A channel that is UNMAPPED is NO_SOURCE, and a value that it does not
have BAD_VALUE. Nothing else changes. R121, Table 7-1: thresholds and band limits are clamped to ±1,000,000,000,
hysteresis to 0–1,000,000, delta to 1–2,000,000,000; a band whose lo is above its hi after clamping is refused. That a
CHANGE watch stores hysteresis 0 is the model's choice (log 38). R127: an accepted REACT_SET stores a reaction of its
sender with its checked trigger and action and counts of 0, and answers its entry; a trigger, action or mode out of
range is BAD_VALUE. Nothing else changes. R127, Table 7-3: what a trigger and an action check: every number within its
range, every name within its enumeration, and a stored segment by Table 2-1. -/
def Obligations.WatchAndReactSet : Prop :=
  (∀ (s : State) (src : Source) (i : Fin 8) (tag : Byte) (f : WatchFields) (ch : ChannelId) (idx : Fin 8)
     (kind : WatchKind), Accepts s src i → entryOk 16 f.entry = true → f.channel = ch.val → f.index = idx.val →
     f.comparison = .known kind →
     ((s.channel ch).state = .unmapped →
       exec (.watchSet src tag f) s = .next (answered s src i 0x30#8 tag (Reply.refuse .noSource))) ∧
     ((s.channel ch).state ≠ .unmapped → (s.channel ch).valueCount ≤ idx.val →
       exec (.watchSet src tag f) s = .next (answered s src i 0x30#8 tag (Reply.refuse .badValue))) ∧
     ((s.channel ch).state ≠ .unmapped → idx.val < (s.channel ch).valueCount →
       (∀ st, placeEntry allEntries (fun n => (s.watch n).map Watch.creator) src f.entry = .refused st →
         exec (.watchSet src tag f) s = .next (answered s src i 0x30#8 tag (Reply.refuse st))) ∧
       (∀ n, placeEntry allEntries (fun n => (s.watch n).map Watch.creator) src f.entry = .at n →
         (checkWatchTest kind f = none →
           exec (.watchSet src tag f) s = .next (answered s src i 0x30#8 tag (Reply.refuse .badValue))) ∧
         (∀ test h clamped, checkWatchTest kind f = some (test, h, clamped) →
           exec (.watchSet src tag f) s = .next (answered
             (s.setWatch n
               (some
                 { channel := ch, index := idx, test := test, hysteresis := h, fireOnLoss := f.fireOnLoss
                   state := .armed, reference := none, creator := src, fires := 0 }))
             src i 0x30#8 tag (Reply.ok clamped (.entry n.val))))))) ∧
  (∀ (s : State) (src : Source) (i : Fin 8) (tag : Byte) (f : WatchFields), Accepts s src i →
     ((∃ n, f.entry = .number n ∧ 16 ≤ n) ∨ 16 ≤ f.channel ∨ 8 ≤ f.index ∨ f.comparison = .outside) →
     exec (.watchSet src tag f) s = .next (answered s src i 0x30#8 tag (Reply.refuse .badValue))) ∧
  (∀ f : WatchFields,
     let value := fun (x : Int) => max (-1000000000) (min 1000000000 x)
     let far := fun (x : Int) => decide (x < -1000000000 ∨ 1000000000 < x)
     let h := max 0 (min 1000000 f.hysteresis)
     let hFar := decide (f.hysteresis < 0 ∨ 1000000 < f.hysteresis)
     checkWatchTest .above f = some (.above (value f.threshold), h, far f.threshold || hFar) ∧
     checkWatchTest .below f = some (.below (value f.threshold), h, far f.threshold || hFar) ∧
     (value f.hi < value f.lo → checkWatchTest .outside f = none ∧ checkWatchTest .inside f = none) ∧
     (value f.lo ≤ value f.hi →
       checkWatchTest .outside f = some (.outside (value f.lo) (value f.hi), h, far f.lo || far f.hi || hFar) ∧
       checkWatchTest .inside f = some (.inside (value f.lo) (value f.hi), h, far f.lo || far f.hi || hFar)) ∧
     checkWatchTest .change f = some
       (.change (max 1 (min 2000000000 f.delta)), 0, decide (f.delta < 1 ∨ 2000000000 < f.delta))) ∧
  (∀ (s : State) (src : Source) (i : Fin 8) (tag : Byte) (f : ReactFields), Accepts s src i →
     ((checkTrigger f.trigger = none ∨ checkAction f.action = none ∨ f.mode = .outside) →
       exec (.reactSet src tag f) s = .next (answered s src i 0x32#8 tag (Reply.refuse .badValue))) ∧
     (∀ trigger action clamped mode, checkTrigger f.trigger = some trigger →
       checkAction f.action = some (action, clamped) → f.mode = .known mode →
       (∀ st, placeEntry allEntries (fun n => (s.reaction n).map Reaction.creator) src f.entry = .refused st →
         exec (.reactSet src tag f) s = .next (answered s src i 0x32#8 tag (Reply.refuse st))) ∧
       (∀ n, placeEntry allEntries (fun n => (s.reaction n).map Reaction.creator) src f.entry = .at n →
         exec (.reactSet src tag f) s = .next (answered
           (s.setReaction n
             (some
               { trigger := trigger, action := action, mode := mode, enabled := f.enabled, creator := src, fires := 0
                 skips := 0 }))
           src i 0x32#8 tag (Reply.ok clamped (.entry n.val)))))) ∧
  ((∀ n : EntryId, checkTrigger (.watch n.val) = some (.watch n)) ∧ (∀ n, 16 ≤ n → checkTrigger (.watch n) = none) ∧
   (∀ (m : MotorId) (reasons : List EndReason), checkTrigger (.segmentEnd m.val none) = some (.segmentEnd m none) ∧
     checkTrigger (.segmentEnd m.val (some (reasons.map .known))) = some (.segmentEnd m (some reasons))) ∧
   (∀ n reasons, (6 ≤ n ∨ ∃ rs, reasons = some rs ∧ .outside ∈ rs) →
     checkTrigger (.segmentEnd n reasons) = none) ∧
   (∀ v : VoiceId, checkTrigger (.voiceEnd v.val) = some (.voiceEnd v)) ∧
   (∀ n, 4 ≤ n → checkTrigger (.voiceEnd n) = none) ∧
   (∀ m : MotorId, checkTrigger (.claimEnd m.val) = some (.claimEnd (.motor m))) ∧
   (∀ v : VoiceId, checkTrigger (.claimEnd (6 + v.val)) = some (.claimEnd (.voice v))) ∧
   (∀ n, 10 ≤ n → checkTrigger (.claimEnd n) = none) ∧
   (∀ (p : PortId) (st : ChainState), checkTrigger (.chainState p.val none) = some (.chainState p none) ∧
     checkTrigger (.chainState p.val (some (.known st))) = some (.chainState p (some st))) ∧
   (∀ n x, (4 ≤ n ∨ x = some .outside) → checkTrigger (.chainState n x) = none) ∧
   checkTrigger .outside = none) ∧
  ((∀ (m : MotorId) (a : StopAction), checkAction (.halt m.val (.known a)) = some (.halt m a, false)) ∧
   (∀ n a, (6 ≤ n ∨ a = .outside) → checkAction (.halt n a) = none) ∧
   (∀ (m : MotorId) (r : RawSegment) (replace : Bool),
     (checkSegment r = none → checkAction (.segment m.val r replace) = none) ∧
     (∀ seg clamped, checkSegment r = some (seg, clamped) →
       checkAction (.segment m.val r replace) = some (.segment m seg replace, clamped))) ∧
   (∀ n r replace, 6 ≤ n → checkAction (.segment n r replace) = none) ∧
   (∀ (v : VoiceId) (c : CueId), checkAction (.play v.val c.val) = some (.play v c, false)) ∧
   (∀ n c, (4 ≤ n ∨ 64 ≤ c) → checkAction (.play n c) = none) ∧
   (∀ (v : VoiceId) (fade : Bool), checkAction (.stop v.val fade) = some (.stop v fade, false)) ∧
   (∀ n fade, 4 ≤ n → checkAction (.stop n fade) = none) ∧
   (∀ code, checkAction (.notify code) = some (.notify code, false)) ∧ checkAction .outside = none)

/-- R123, R124, R126, Table 7-2: a watch against a sample. An ARMED level watch fires when its test holds and is TRIPPED
then; a TRIPPED one re-arms, without firing, at its distance from the threshold. A CHANGE watch takes its first value as
its reference, and fires, with a new reference, at a value that differs by its delta or more. Firings are counted up to
65535. R129, R132, R133: the firing of the one enabled reaction that matches an event, with a NOTIFY action: its fire
count rises, ONCE disables it, and a REACTION notice with its code and depth 0 goes to its creator's link. Nothing else
changes. R129: an event that no enabled reaction matches changes nothing. Table 7-4: which events a trigger matches.
R129, R130: an event of depth 0 to 3 gives every entry its turn, in entry order; an enabled reaction that matches fires:
its count rises, ONCE disables it, and its action is carried out, the events it causes taken at once, one depth further.
R131: HALT, SEGMENT, PLAY and STOP go ahead only while the creator owns the motor or voice; otherwise the skip count
rises and NOT_OWNER is sent. R132: HALT is the stop action with reason HALTED, SEGMENT the hand-in, PLAY and STOP those
of the sound engine, and a refusal raises the skip count and sends REFUSED with its status. An event of depth 4 fires
none: the skip count rises and TOO_DEEP is sent. R39: a segment handed in is refused as a SEG is from FAULTED on, FULL
but with replace, and joins the queue's tail; with replace it is the only entry, and an active segment ends with
REPLACED, the motor holding at its position. -/
def Obligations.WatchesAndReactionsFire : Prop :=
  (∀ (w : Watch) (v x lo hi delta r : Int),
     let fired := { w with fires := min 65535 (w.fires + 1), state := .tripped }
     let level := fun (t : WatchTest) (fires rearms : Prop) => w.test = t →
       (w.state = .armed → fires → evaluateWatch w v = (fired, true)) ∧
       (w.state = .armed → ¬fires → evaluateWatch w v = (w, false)) ∧
       (w.state = .tripped → rearms → evaluateWatch w v = ({ w with state := .armed }, false)) ∧
       (w.state = .tripped → ¬rearms → evaluateWatch w v = (w, false))
     level (.above x) (x < v) (v ≤ x - w.hysteresis) ∧
     level (.below x) (v < x) (x + w.hysteresis ≤ v) ∧
     level (.outside lo hi) (v < lo ∨ hi < v) (lo + w.hysteresis ≤ v ∧ v ≤ hi - w.hysteresis) ∧
     level (.inside lo hi) (lo ≤ v ∧ v ≤ hi) (v < lo - w.hysteresis ∨ hi + w.hysteresis < v) ∧
     (w.test = .change delta → w.reference = none → evaluateWatch w v = ({ w with reference := some v }, false)) ∧
     (w.test = .change delta → w.reference = some r → delta ≤ (v - r).natAbs →
       evaluateWatch w v = ({ w with fires := min 65535 (w.fires + 1), reference := some v }, true)) ∧
     (w.test = .change delta → w.reference = some r → ((v - r).natAbs : Int) < delta →
       evaluateWatch w v = (w, false))) ∧
  (∀ (s : State) (e : Event) (n : EntryId) (r : Reaction) (code : Byte), s.reaction n = some r →
     r.action = .notify code → r.enabled = true → matchesEvent r.trigger e = true →
     (∀ k q, k ≠ n → s.reaction k = some q → q.enabled = false ∨ matchesEvent q.trigger e = false) →
     react e s =
       (s.setReaction n
           (some { r with fires := min 65535 (r.fires + 1), enabled := decide (r.mode ≠ .once) })).place r.creator
         (.reaction n (.notify code) e 0 (min 65535 (r.fires + 1)) r.skips s.time)) ∧
  (∀ (s : State) (e : Event),
     (∀ n r, s.reaction n = some r → r.enabled = false ∨ matchesEvent r.trigger e = false) → react e s = s) ∧
  (∀ (trigger : Trigger) (e : Event), matchesEvent trigger e = true ↔
     (∃ n cause, trigger = .watch n ∧ e = .watch n cause) ∨
     (∃ m reasons tag reason blended, trigger = .segmentEnd m reasons ∧ e = .segmentEnd m tag reason blended ∧
       ∀ rs, reasons = some rs → reason ∈ rs) ∨
     (∃ v reason, trigger = .voiceEnd v ∧ e = .voiceEnd v reason) ∨
     (∃ r reason, trigger = .claimEnd r ∧ e = .claimEnd r reason) ∨
     (∃ p entered st, trigger = .chainState p entered ∧ e = .chainState p st ∧ ∀ x, entered = some x → x = st)) ∧
  (∀ (e : Event) (s : State), react e s = takeEvent 4 e s) ∧
  (∀ (k : Nat) (e : Event) (s : State),
     let depth := 3 - k
     let inner := takeEvent k
     let turn := fun (u : State) (n : EntryId) =>
       match u.reaction n with
       | none => u
       | some r =>
         if r.enabled && matchesEvent r.trigger e then
           let fired := { r with fires := min 65535 (r.fires + 1), enabled := decide (r.mode ≠ .once) }
           let v := u.setReaction n (some fired)
           let skip := fun (outcome : ReactionOutcome) =>
             (v.setReaction n (some { fired with skips := min 65535 (r.skips + 1) })).place r.creator
               (.reaction n outcome e depth fired.fires (min 65535 (r.skips + 1)) u.time)
           let owned := fun (x : Resource) (go : State) => if u.owner x = some r.creator then go else skip .notOwner
           match r.action with
           | .halt m a =>
             owned (.motor m) ((stopAction m .halted a v).2.foldl (fun w x => inner x w) (stopAction m .halted a v).1)
           | .segment m seg replace =>
             owned (.motor m)
               (match handIn m seg replace v with
                | .ok y => y.2.foldl (fun w x => inner x w) y.1
                | .error st => skip (.refused st))
           | .play x cue =>
             owned (.voice x) (if u.cue cue = none then skip (.refused .badValue) else playVoice inner x cue v)
           | .stop x fade => owned (.voice x) (stopVoice inner x fade v)
           | .notify code => v.place r.creator (.reaction n (.notify code) e depth fired.fires r.skips u.time)
         else u
     let deep := fun (u : State) (n : EntryId) =>
       match u.reaction n with
       | none => u
       | some r =>
         if r.enabled && matchesEvent r.trigger e then
           (u.setReaction n (some { r with skips := min 65535 (r.skips + 1) })).place r.creator
             (.reaction n .tooDeep e 4 r.fires (min 65535 (r.skips + 1)) u.time)
         else u
     takeEvent (k + 1) e s = allEntries.foldl turn s ∧ takeEvent 0 e s = allEntries.foldl deep s) ∧
  (∀ (s : State) (m : MotorId) (seg : Segment) (replace : Bool),
     let mo := s.motor m
     let unmapped := ∃ ch idx side x, seg.condition = .channel ch idx side x ∧ (s.channel ch).state = .unmapped
     let beyond := ∃ ch idx side x, seg.condition = .channel ch idx side x ∧ (s.channel ch).valueCount ≤ idx.val
     let passes := mo.state ≠ .fault ∧ ¬unmapped ∧ ¬beyond
     (mo.state = .fault → handIn m seg replace s = .error .faulted) ∧
     (mo.state ≠ .fault → unmapped → handIn m seg replace s = .error .noSource) ∧
     (mo.state ≠ .fault → ¬unmapped → beyond → handIn m seg replace s = .error .badValue) ∧
     (passes → replace = false →
       (8 ≤ mo.queue.length → handIn m seg replace s = .error .full) ∧
       (mo.queue.length < 8 →
         handIn m seg replace s = .ok (s.setMotor m { mo with queue := mo.queue ++ [seg] }, []))) ∧
     (passes → replace = true →
       (mo.active = none → handIn m seg replace s = .ok (s.setMotor m { mo with queue := [seg] }, [])) ∧
       (∀ a, mo.active = some a → handIn m seg replace s = .ok
         ((s.setMotor m
             { mo with
               state := .holding, active := none, queue := [seg], refPos := mo.position, refFrac := 0, vRef := 0
               accFrac := 0 }).place (s.ownerLink (.motor m))
           (.segmentEnd m a.seg.tag .replaced false mo.position mo.queue.length s.time),
          [.segmentEnd m a.seg.tag .replaced false]))))

/-! ### The clip store (Chapter 8) -/

/-- R137: WINDOW_SET. A number or a right out of range is BAD_VALUE, a locked window DENIED, and so is no valid window
whose size is not a power of two from 4096 to 262144, whose base is no multiple of it, or that leaves the store, nor a
lock without validity: both BAD_VALUE. Otherwise the window is defined, an invalid one without rights and lock, and the
four windows are answered. Nothing else changes. R137, R138: an offset may be written by a sender when the
lowest-numbered valid window that covers it grants its right, and is locked when any valid window with a lock covers it.
-/
def Obligations.WindowSetDefinesWindow : Prop :=
  (∀ (s : State) (i : Fin 8) (tag : Byte) (f : WindowFields), Accepts s .program i →
     let refused := fun st =>
       exec (.windowSet .program tag f) s = .next (answered s .program i 0x38#8 tag (Reply.refuse st))
     (4 ≤ f.window → refused .badValue) ∧
     (∀ n : WindowId, f.window = n.val →
       let sizeOk := f.size ∈ [4096, 8192, 16384, 32768, 65536, 131072, 262144]
       let ok := (f.valid = true → sizeOk ∧ f.base % f.size = 0 ∧ f.base + f.size ≤ 262144) ∧
         (f.locked = true → f.valid = true)
       (f.otherRight = true → refused .badValue) ∧
       (f.otherRight = false → s.windows[n].locked = true → refused .denied) ∧
       (f.otherRight = false → s.windows[n].locked = false → ¬ok → refused .badValue) ∧
       (f.otherRight = false → s.windows[n].locked = false → ok →
         let w : Window :=
           { valid := f.valid, base := f.base, size := f.size, programWrite := f.valid && f.programWrite
             tabletWrite := f.valid && f.tabletWrite, playable := f.valid && f.playable
             locked := f.valid && f.locked }
         exec (.windowSet .program tag f) s = .next (answered { s with windows := s.windows.set n w } .program i 0x38#8
           tag (Reply.ok false (.windows (s.windows.set n w).toList)))))) ∧
  (∀ (s : State) (src : Source) (a : Nat),
     let covers := fun (n : WindowId) =>
       s.windows[n].valid = true ∧ s.windows[n].base ≤ a ∧ a < s.windows[n].base + s.windows[n].size
     ((∀ n, ¬covers n) → mayWrite s src a = false ∧ mayPlay s a = false) ∧
     (∀ n : WindowId, covers n → (∀ k, k < n → ¬covers k) →
       (mayWrite s .program a = s.windows[n].programWrite ∧ mayWrite s .tablet a = s.windows[n].tabletWrite ∧
         mayPlay s a = s.windows[n].playable)) ∧
     (lockedAt s a = true ↔ ∃ n, covers n ∧ s.windows[n].locked = true))

/-- R136, R138: an accepted STORE_WRITE of 1 to 240 bytes within the store, every byte of which the sender may write,
none locked, none in a clip that a voice holds. Each offset of the run then reads its byte and every other offset what
it read before; the store keeps its canonical form, and nothing else changes. R138: the refusals of STORE_WRITE, in
order: no byte or more than 240 is BAD_LENGTH; a range that leaves the store BAD_VALUE; a byte that the sender may not
write, or a locked one, DENIED; a byte that lies within a clip whose in-use count is above 0 IN_USE. Nothing else
changes. -/
def Obligations.StoreWriteReadsBack : Prop :=
  (∀ (s : State) (src : Source) (i : Fin 8) (tag : Byte) (base : Nat) (bytes : List Byte), Accepts s src i →
     Store.wf s.store = true → bytes ≠ [] → bytes.length ≤ 240 → base + bytes.length ≤ 262144 →
     (∀ a, base ≤ a → a < base + bytes.length → mayWrite s src a = true ∧ lockedAt s a = false) →
     (∀ k c a, s.clip k = some c → 0 < c.inUse → c.base ≤ a → a < c.base + c.length →
       ¬(base ≤ a ∧ a < base + bytes.length)) →
     ∃ t, exec (.storeWrite src tag base bytes) s = .next (answered t src i 0x39#8 tag (Reply.ok false .empty)) ∧
       (∀ a, Store.read t.store a =
         if base ≤ a ∧ a < base + bytes.length then bytes.getD (a - base) 0 else Store.read s.store a) ∧
       Store.wf t.store = true ∧ t = { s with store := t.store }) ∧
  (∀ (s : State) (src : Source) (i : Fin 8) (tag : Byte) (base : Nat) (bytes : List Byte), Accepts s src i →
     let refused := fun st =>
       exec (.storeWrite src tag base bytes) s = .next (answered s src i 0x39#8 tag (Reply.refuse st))
     let inRange := fun a => base ≤ a ∧ a < base + bytes.length
     (bytes = [] ∨ 240 < bytes.length → refused .badLength) ∧
     (bytes ≠ [] → bytes.length ≤ 240 →
       (262144 < base + bytes.length → refused .badValue) ∧
       (base + bytes.length ≤ 262144 →
         ((∃ a, inRange a ∧ (mayWrite s src a = false ∨ lockedAt s a = true)) → refused .denied) ∧
         ((∀ a, inRange a → mayWrite s src a = true ∧ lockedAt s a = false) →
           (∃ k c a, s.clip k = some c ∧ 0 < c.inUse ∧ c.base ≤ a ∧ a < c.base + c.length ∧ inRange a) →
           refused .inUse))))

/-- R139: STORE_READ, from either source. A count other than 1 to 240, or a range that leaves the store, is BAD_VALUE, a
byte without the sender's write right DENIED; otherwise the bytes are answered as they stand. It changes nothing but its
reply slot. -/
def Obligations.StoreReadAnswersBytes : Prop :=
  ∀ (s : State) (src : Source) (i : Fin 8) (tag : Byte) (base count : Nat), Accepts s src i →
    let answer := fun r => exec (.storeRead src tag base count) s = .next (answered s src i 0x3A#8 tag r)
    let inRange := fun a => base ≤ a ∧ a < base + count
    (count = 0 ∨ 240 < count → answer (Reply.refuse .badValue)) ∧
    (1 ≤ count → count ≤ 240 →
      (262144 < base + count → answer (Reply.refuse .badValue)) ∧
      (base + count ≤ 262144 →
        ((∃ a, inRange a ∧ mayWrite s src a = false) → answer (Reply.refuse .denied)) ∧
        ((∀ a, inRange a → mayWrite s src a = true) →
          answer (Reply.ok false (.bytes ((List.range count).map fun k => Store.read s.store (base + k)))))))

/-- R140 to R143: CLIP_DEFINE and CUE_SET place a checked record of their sender and answer its entry, or are refused as
their placing is; CLIP_DEFINE of an entry whose clip a voice holds is IN_USE. Nothing else changes. R142, Table 8-3:
what CUE_SET checks: a CLIP cue names an entry of the directory, a start of at most 262143 and a length of at most
262144; a TONE cue's frequency is clamped to 20–8000 and its wave is one of the two; a duration is clamped to 1–60,000
and a gain to 0–1024; a repeat is taken as it is (above 255 the model's choice, log 43); the next is an entry of the
table or END. -/
def Obligations.ClipsAndCuesAreSet : Prop :=
  (∀ (s : State) (src : Source) (i : Fin 8) (tag : Byte), Accepts s src i →
    (∀ (f : ClipFields) format n, f.format = .known format → entryOk 48 f.entry = true →
      f.length ≠ 0 → (format = .pcm16At16k → f.length % 2 = 0) → f.base + f.length ≤ 262144 →
      placeEntry allClips (fun n => (s.clip n).map Clip.creator) src f.entry = .at n →
      ((∃ c, s.clip n = some c ∧ 0 < c.inUse) →
        exec (.clipDefine src tag f) s = .next (answered s src i 0x3B#8 tag (Reply.refuse .inUse))) ∧
      ((∀ c, s.clip n = some c → c.inUse = 0) →
        exec (.clipDefine src tag f) s = .next (answered
          (s.setClip n (some { base := f.base, length := f.length, format := format, creator := src, inUse := 0 }))
          src i 0x3B#8 tag (Reply.ok false (.entry n.val))))) ∧
    (∀ (f : ClipFields) format st, f.format = .known format → entryOk 48 f.entry = true →
      f.length ≠ 0 → (format = .pcm16At16k → f.length % 2 = 0) → f.base + f.length ≤ 262144 →
      placeEntry allClips (fun n => (s.clip n).map Clip.creator) src f.entry = .refused st →
      exec (.clipDefine src tag f) s = .next (answered s src i 0x3B#8 tag (Reply.refuse st))) ∧
    (∀ (f : ClipFields) format, f.format = .known format →
      (f.length = 0 ∨ (format = .pcm16At16k ∧ f.length % 2 = 1) ∨ 262144 < f.base + f.length) →
      exec (.clipDefine src tag f) s = .next (answered s src i 0x3B#8 tag (Reply.refuse .badValue))) ∧
    (∀ f : ClipFields, (f.format = .outside ∨ ∃ n, f.entry = .number n ∧ 48 ≤ n) →
      exec (.clipDefine src tag f) s = .next (answered s src i 0x3B#8 tag (Reply.refuse .badValue))) ∧
    (∀ (f : CueFields) body clamped next, entryOk 64 f.entry = true → checkCueBody f.body = some (body, clamped) →
      checkNext f.next = some next →
      (∀ n, placeEntry allCues (fun n => (s.cue n).map Cue.creator) src f.entry = .at n →
        exec (.cueSet src tag f) s = .next (answered
          (s.setCue n (some { body := body, next := next, creator := src })) src i 0x3D#8 tag
          (Reply.ok clamped (.entry n.val)))) ∧
      (∀ st, placeEntry allCues (fun n => (s.cue n).map Cue.creator) src f.entry = .refused st →
        exec (.cueSet src tag f) s = .next (answered s src i 0x3D#8 tag (Reply.refuse st)))) ∧
    (∀ f : CueFields,
      (checkCueBody f.body = none ∨ checkNext f.next = none ∨ ∃ n, f.entry = .number n ∧ 64 ≤ n) →
      exec (.cueSet src tag f) s = .next (answered s src i 0x3D#8 tag (Reply.refuse .badValue)))) ∧
  (let level := fun (x : Int) => (max 0 (min 1024 x)).toNat
   let loud := fun (x : Int) => decide (x < 0 ∨ 1024 < x)
   let length := fun (x : Int) => (max 1 (min 60000 x)).toNat
   let long := fun (x : Int) => decide (x < 1 ∨ 60000 < x)
   (∀ (c : ClipId) (start len rep : Nat) (gain : Int),
     (start ≤ 262143 → len ≤ 262144 →
       checkCueBody (.clip c.val start len rep gain) = some (.clip c start len rep (level gain), loud gain)) ∧
     ((262143 < start ∨ 262144 < len) → checkCueBody (.clip c.val start len rep gain) = none)) ∧
   (∀ n start len rep gain, 48 ≤ n → checkCueBody (.clip n start len rep gain) = none) ∧
   (∀ (frequency duration gain : Int) (w : Wave),
     checkCueBody (.tone frequency duration (.known w) gain) = some
       (.tone (max 20 (min 8000 frequency)).toNat (length duration) w (level gain),
        decide (frequency < 20 ∨ 8000 < frequency) || long duration || loud gain) ∧
     checkCueBody (.tone frequency duration .outside gain) = none) ∧
   (∀ duration, checkCueBody (.silence duration) = some (.silence (length duration), long duration)) ∧
   checkCueBody .outside = none ∧
   (∀ n : CueId, checkNext (.entry n.val) = some (.entry n)) ∧ (∀ n, 64 ≤ n → checkNext (.entry n) = none) ∧
   checkNext .finish = some .finish)

/-- R141, R143, R167: CLIP_REMOVE and CUE_CLEAR empty their entry for its creator or for PROGRAM, but not a clip that a
voice holds, which is IN_USE; an empty entry is OK, an entry out of range BAD_VALUE, and TABLET on a record of PROGRAM
NOT_PERMITTED. Nothing else changes. -/
def Obligations.ClipsAndCuesAreRemoved : Prop :=
  ∀ (s : State) (src : Source) (i : Fin 8) (tag : Byte), Accepts s src i →
    (∀ n : ClipId,
      (s.clip n = none →
        exec (.clipRemove src tag n.val) s = .next (answered s src i 0x3C#8 tag (Reply.ok false .empty))) ∧
      (∀ c, s.clip n = some c →
        (src = .tablet → c.creator = .program →
          exec (.clipRemove src tag n.val) s = .next (answered s src i 0x3C#8 tag (Reply.refuse .notPermitted))) ∧
        ((src = .program ∨ c.creator = .tablet) → 0 < c.inUse →
          exec (.clipRemove src tag n.val) s = .next (answered s src i 0x3C#8 tag (Reply.refuse .inUse))) ∧
        ((src = .program ∨ c.creator = .tablet) → c.inUse = 0 →
          exec (.clipRemove src tag n.val) s =
            .next (answered (s.setClip n none) src i 0x3C#8 tag (Reply.ok false .empty))))) ∧
    (∀ n : CueId,
      (s.cue n = none →
        exec (.cueClear src tag n.val) s = .next (answered s src i 0x3E#8 tag (Reply.ok false .empty))) ∧
      (∀ c, s.cue n = some c →
        (src = .tablet → c.creator = .program →
          exec (.cueClear src tag n.val) s = .next (answered s src i 0x3E#8 tag (Reply.refuse .notPermitted))) ∧
        ((src = .program ∨ c.creator = .tablet) →
          exec (.cueClear src tag n.val) s =
            .next (answered (s.setCue n none) src i 0x3E#8 tag (Reply.ok false .empty))))) ∧
    (∀ n, 48 ≤ n → exec (.clipRemove src tag n) s =
      .next (answered s src i 0x3C#8 tag (Reply.refuse .badValue))) ∧
    (∀ n, 64 ≤ n → exec (.cueClear src tag n) s =
      .next (answered s src i 0x3E#8 tag (Reply.refuse .badValue)))

/-! ### Voices (Chapter 8) -/

/-- R144, R145, R62: an accepted PLAY. In every voice state it plays the cue at once, with the reactions that follow,
and answers the cue, the state after and whether it replaced what was playing. A PLAYING or FADING voice ends first with
REPLACED, its clip, cue and grant gone (R150); its notice and event wait until the new cue has been taken up. The voice
is then PLAYING from gain 0 and phase 0 with a copy of the cue: a TONE or SILENCE at its duration of 16 samples a
millisecond; a CLIP at the first byte of its region, with its repeats, its clip held once more. Its target is the cue's
gain, 0 for a SILENCE, by its level, its ask 120 mA by the target, and its ceiling what the grant pays for. A CLIP cue
without a clip or a whole sample ends the voice with BAD_CLIP, reported before REPLACED (the model's reading, log 26). A
cue entry that is empty or out of range is BAD_VALUE. That the state after is the one after the reactions is the model's
choice (log 9). -/
def Obligations.PlayStartsCue : Prop :=
  ∀ (s : State) (src : Source) (i : Fin 8) (tag : Byte) (v : VoiceId), Accepts s src i →
    s.owner (.voice v) = some src →
    let vo := s.voice v
    (∀ n, 64 ≤ n → exec (.play src tag v.val n) s =
      .next (answered s src i 0x3F#8 tag (Reply.refuse .badValue))) ∧
    (∀ n : CueId,
      (s.cue n = none → exec (.play src tag v.val n.val) s =
        .next (answered s src i 0x3F#8 tag (Reply.refuse .badValue))) ∧
      (∀ cue, s.cue n = some cue →
        let r := reserved s src i 0x3F#8 tag
        let report := fun (reason : VoiceEndReason) (old : Option CueId) (clip : Option ClipId) (u : State) =>
          react (.voiceEnd v reason) (u.place src (.voiceEnd v reason old clip u.time))
        let cleared : Voice :=
          { vo with
            state := .idle, cueEntry := none, cue := none, target := 0, gain := 0, ceiling := 0, fadeReason := none
            fadeLink := none }
        let old : Voice := if vo.state = .idle then vo else cleared
        let base := if vo.state = .idle then releaseClip v r
          else ((releaseClip v r).setVoice v cleared).releaseSupply (.voice v)
        let replaced := fun (u : State) =>
          if vo.state = .idle then u else report .replaced vo.cueEntry (heldClip vo) u
        let ends := fun (w : State) =>
          let u := replaced w
          exec (.play src tag v.val n.val) s = .next ((u.restartLease (.voice v)).post src i
            (Reply.ok false (.played (u.voice v).state n (decide (vo.state ≠ .idle))))) ∧ Quiet r u
        let plays := fun (from' : State) (region : Option Region) (position : Nat) (repeats : Repeats) (gain : Nat) =>
          let target := gain * vo.level / 1024
          let ask := target * 120 / 1024
          let w := from'.askSupply (.voice v) ask
          let grant := (w.governor.supply (.voice v)).grant
          ends (w.setVoice v
            { old with
              state := .playing, cueEntry := some n, cue := some ⟨cue.body, cue.next, region⟩, position := position
              half := false, repeats := repeats, phase := 0, gain := 0, target := target
              ceiling := if grant = ask then target else grant * 1024 / 120 })
        let badClip := ends (report .badClip none none
          ((base.setVoice v
            { old with
              state := .idle, cueEntry := none, cue := none, target := 0, gain := 0, ceiling := 0, fadeReason := none
              fadeLink := none, phase := 0 }).releaseSupply (.voice v)))
        (∀ frequency duration wave gain, cue.body = .tone frequency duration wave gain →
          plays base none (duration * 16) (.left 0) gain) ∧
        (∀ duration, cue.body = .silence duration → plays base none (duration * 16) (.left 0) 0) ∧
        (∀ k start len rep gain, cue.body = .clip k start len rep gain →
          (base.clip k = none → badClip) ∧
          (∀ c, base.clip k = some c →
            let length := if len = 0 then c.length - start else min len (c.length - start)
            let size := if c.format = .pcm16At16k then 2 else 1
            (length < size → badClip) ∧
            (size ≤ length → plays (base.setClip k (some { c with inUse := c.inUse + 1 }))
              (some ⟨c.base, c.format, c.base + start, length⟩) 0 (if rep = 255 then .endless else .left rep) gain)))))

/-- R147, R148, R150, R156: STOP. An option outside the enumeration is BAD_VALUE; any other is OK, with the state after
the stop and its reactions (the model's choice, log 9), and the lease restarts. On an IDLE voice it changes nothing.
With NOW a PLAYING or FADING voice ends at once with STOPPED on its owner's link. With FADE a PLAYING voice is made to
fade with STOPPED, and a FADING one goes on with its reason and link. R148: a fade-stop, by STOP or by the end of a
claim: a PLAYING voice whose gain is 0 ends at once with the reason, on its owner's link; another PLAYING voice is
FADING to target 0 with the reason, and the link of its owner, or the program link without one; a voice that is not
PLAYING is left alone. R150: the end of a voice: the clip of the CLIP cue it plays is released, its use count 1 lower;
the voice is IDLE without cue, target, gain and ceiling, its level kept, and its grant is released; then VOICE_END is
placed on the link with the cue entry and the clip, and then the reactions take the event. -/
def Obligations.StopEndsOrFades : Prop :=
  (∀ (s : State) (src : Source) (i : Fin 8) (tag : Byte) (v : VoiceId), Accepts s src i →
     s.owner (.voice v) = some src →
     let vo := s.voice v
     let r := reserved s src i 0x40#8 tag
     let stops := fun (o : FadeOption) (u : State) => exec (.stop src tag v.val (.known o)) s =
       .next ((u.restartLease (.voice v)).post src i (Reply.ok false (.voiceState (u.voice v).state)))
     let ended := (closeVoice v .stopped src r).1
     let now := react (.voiceEnd v .stopped)
       (ended.place src (.voiceEnd v .stopped vo.cueEntry (heldClip vo) s.time))
     exec (.stop src tag v.val .outside) s = .next (answered s src i 0x40#8 tag (Reply.refuse .badValue)) ∧
     (∀ o, vo.state = .idle → stops o r) ∧
     (vo.state ≠ .idle → stops .now now) ∧ Quiet r now ∧
     (vo.state = .fading → stops .fade r) ∧
     (vo.state = .playing → vo.gain = 0 → stops .fade now) ∧
     (vo.state = .playing → vo.gain ≠ 0 → stops .fade (r.setVoice v
       { vo with state := .fading, target := 0, fadeReason := some .stopped, fadeLink := some src }))) ∧
  (∀ (s : State) (v : VoiceId) (reason : VoiceEndReason),
     let vo := s.voice v
     let link := (s.owner (.voice v)).getD .program
     (vo.state ≠ .playing → fadeStop react v reason s = s) ∧
     (vo.state = .playing → vo.gain = 0 → fadeStop react v reason s = react (.voiceEnd v reason)
       ((closeVoice v reason link s).1.place link (.voiceEnd v reason vo.cueEntry (heldClip vo) s.time))) ∧
     (vo.state = .playing → vo.gain ≠ 0 → fadeStop react v reason s = s.setVoice v
       { vo with state := .fading, target := 0, fadeReason := some reason, fadeLink := some link })) ∧
  (∀ (s : State) (v : VoiceId) (reason : VoiceEndReason) (link : Source),
     let vo := s.voice v
     let released := releaseClip v s
     closeVoice v reason link s =
       ((released.setVoice v
           { vo with
             state := .idle, cueEntry := none, cue := none, target := 0, gain := 0, ceiling := 0
             fadeReason := none, fadeLink := none }).releaseSupply (.voice v),
        ⟨v, reason, link, vo.cueEntry, heldClip vo⟩) ∧
     released = { s with clips := released.clips } ∧
     (∀ n : ClipId, released.clip n =
       if heldClip vo = some n then (s.clip n).map fun c => { c with inUse := c.inUse - 1 } else s.clip n) ∧
     (∀ n : ClipId, heldClip vo = some n ↔
       ∃ start len rep gain next region, vo.cue = some ⟨.clip n start len rep gain, next, region⟩) ∧
     (∀ x : VoiceReport, reportVoice react x s = react (.voiceEnd x.voice x.reason)
       (s.place x.link (.voiceEnd x.voice x.reason x.cue x.clip s.time))) ∧
     (s.releaseSupply (.voice v)).governor.supply (.voice v) = ⟨0, 0⟩)

/-- R149, R62: VOICE_GAIN clamps the level to 0–1024 and sets it at once. In IDLE and FADING nothing else changes; in
PLAYING the target is the cue's gain by the level, the voice asks, and the ceiling is what the grant pays for. The reply
carries level, target, ceiling and state, and the lease restarts. R155: MASTER_SET clamps its value to 0–1024, with
CLAMPED when that changed it, and sets the master at once; the reply carries it, and nothing else changes. -/
def Obligations.LevelsAreSet : Prop :=
  (∀ (s : State) (src : Source) (i : Fin 8) (tag : Byte) (v : VoiceId) (x : Int), Accepts s src i →
     s.owner (.voice v) = some src →
     let vo := s.voice v
     let level := (max 0 (min 1024 x)).toNat
     let clamped := decide (x < 0 ∨ 1024 < x)
     (vo.state ≠ .playing → exec (.voiceGain src tag v.val x) s = .next (answered
       ((s.setVoice v { vo with level := level }).restartLease (.voice v)) src i 0x41#8 tag
       (Reply.ok clamped (.voiceGain level vo.target vo.ceiling vo.state)))) ∧
     (∀ cue, vo.state = .playing → vo.cue = some cue →
       let target := cueGain cue.body * level / 1024
       let ask := target * 120 / 1024
       let u := s.askSupply (.voice v) ask
       let grant := (u.governor.supply (.voice v)).grant
       let ceiling := if grant = ask then target else grant * 1024 / 120
       exec (.voiceGain src tag v.val x) s = .next (answered
         ((u.setVoice v { vo with level := level, target := target, ceiling := ceiling }).restartLease (.voice v))
         src i 0x41#8 tag (Reply.ok clamped (.voiceGain level target ceiling .playing))))) ∧
  (∀ (s : State) (i : Fin 8) (tag : Byte) (x : Int), Accepts s .program i →
     exec (.masterSet .program tag x) s = .next
       (answered { s with master := (max 0 (min 1024 x)).toNat } .program i 0x42#8 tag
         (Reply.ok (decide (x < 0 ∨ 1024 < x)) (.master (max 0 (min 1024 x)).toNat))))

/-- R150, R154: OUTPUT_SAMPLE gives AOUT the sum of the four contributions by the master, div 1024, saturated to 16
bits, the voices served in order; beside AOUT only voices, grants, use counts, notices and what reactions do change.
With every voice IDLE, AOUT is 0 and nothing else changes. R150, R151, R156: once the sample has been formed each fade
that has reached gain 0 ends its voice, with its reason on its link, and then every end is reported in voice order, its
notice and then its event (the model's order, log 25). R146, R151, R153, R154: one voice's part of an output sample. An
IDLE voice contributes 0 and nothing changes. Another moves its gain by up to 4 toward its target; a FADING voice whose
gain reaches 0 contributes 0 and is to end. Otherwise it contributes its sample by the smaller of gain and ceiling, div
1024, and moves on by one sample: a TONE by its phase, a SILENCE, and a CLIP (R152) by the stored sample at its
position, read as 00h without the PLAYABLE right, a byte of PCM8_8K played twice, its region repeated as its repeats
say. At the cue's last sample the next cue is fetched (R146). R141, R145: the fetch: the clip held is released; END, an
empty entry and a CLIP cue without clip or whole sample end the voice with FINISHED, BROKEN_LIST or BAD_CLIP, or, in
FADING, with the fade's reason; another cue is at its first sample, its clip held, and a PLAYING voice asks for current
(R62). -/
def Obligations.OutputSampleMixesVoices : Prop :=
  (∀ s : State,
     let a := stepVoice 0 s
     let b := stepVoice 1 a.state
     let c := stepVoice 2 b.state
     let d := stepVoice 3 c.state
     let sum := a.contribution + b.contribution + c.contribution + d.contribution
     let mixed := { d.state with aout := max (-32768) (min 32767 ((sum * s.master).tdiv 1024)) }
     let close := fun (acc : State × List VoiceReport) (x : VoiceId × VoiceStep) =>
       let vo := acc.1.voice x.1
       let ended := closeVoice x.1 (vo.fadeReason.getD .stopped) (vo.fadeLink.getD .program) acc.1
       if x.2.faded then (ended.1, acc.2 ++ [ended.2]) else (acc.1, acc.2 ++ x.2.report.toList)
     let closed := [((0 : VoiceId), a), (1, b), (2, c), (3, d)].foldl close (mixed, [])
     (∃ t, exec .outputSample s = .next t ∧ t.aout = mixed.aout ∧ Quiet { s with aout := t.aout } t ∧
       t = closed.2.foldl (fun u r => react (.voiceEnd r.voice r.reason)
         (u.place r.link (.voiceEnd r.voice r.reason r.cue r.clip u.time))) closed.1) ∧
     ((∀ v, (s.voice v).state = .idle) → exec .outputSample s = .next { s with aout := 0 })) ∧
  (∀ (s : State) (v : VoiceId),
     let vo := s.voice v
     let gain := if vo.gain < vo.target then min vo.target (vo.gain + 4) else max vo.target (vo.gain - 4)
     let sounds := vo.state = .playing ∨ (vo.state = .fading ∧ gain ≠ 0)
     let goes := fun (sample : Int) (x : Voice) => stepVoice v s =
       ⟨s.setVoice v { x with gain := gain }, (sample * (min gain vo.ceiling : Nat)).tdiv 1024, none, false⟩
     let ends := fun (sample : Int) (x : Voice) (next : NextCue) => stepVoice v s =
       ⟨(fetchCue v next (s.setVoice v { x with gain := gain })).1,
        (sample * (min gain vo.ceiling : Nat)).tdiv 1024,
        (fetchCue v next (s.setVoice v { x with gain := gain })).2, false⟩
     (vo.state = .idle → stepVoice v s = ⟨s, 0, none, false⟩) ∧
     (vo.state = .fading → gain = 0 → stepVoice v s = ⟨s.setVoice v { vo with gain := 0 }, 0, none, true⟩) ∧
     (∀ frequency duration wave g next region, sounds →
       vo.cue = some ⟨.tone frequency duration wave g, next, region⟩ →
       let p := vo.phase.toNat / 65536
       let sample : Int :=
         match wave with
         | .square => if p < 32768 then 16384 else -16384
         | .triangle => if p < 32768 then (p : Int) - 16384 else 49151 - p
       let x :=
         { vo with
           position := vo.position - 1
           phase := vo.phase + BitVec.ofNat 32 ((frequency * 4294967296 + 8000) / 16000) }
       (1 < vo.position → goes sample x) ∧ (vo.position ≤ 1 → ends sample x next)) ∧
     (∀ duration next region, sounds → vo.cue = some ⟨.silence duration, next, region⟩ →
       let x := { vo with position := vo.position - 1 }
       (1 < vo.position → goes 0 x) ∧ (vo.position ≤ 1 → ends 0 x next)) ∧
     (∀ clip start len rep g next (r : Region), sounds →
       vo.cue = some ⟨.clip clip start len rep g, next, some r⟩ →
       let byte := fun (a : Nat) => if mayPlay s a then Store.read s.store a else 0#8
       let at' := r.first + vo.position
       let sample : Int :=
         match r.format with
         | .pcm16At16k => (byte (at' + 1) ++ byte at').toInt
         | _ => (byte at').toInt * 256
       let size := if r.format = .pcm16At16k then 2 else 1
       let twice := r.format = .pcm8At8k ∧ vo.half = false
       let x :=
         { vo with
           position := if twice then vo.position else vo.position + size
           half := decide twice }
       (x.position + size ≤ r.length → goes sample x) ∧
       (r.length < x.position + size →
         (vo.repeats = .endless → goes sample { vo with position := 0, half := false }) ∧
         (∀ k, vo.repeats = .left (k + 1) →
           goes sample { vo with position := 0, half := false, repeats := .left k }) ∧
         (vo.repeats = .left 0 → ends sample x next)))) ∧
  (∀ (s : State) (v : VoiceId),
     let vo := s.voice v
     let s0 := releaseClip v s
     let ended := fun (next : NextCue) (reason : VoiceEndReason) => fetchCue v next s =
       ((s0.setVoice v
           { vo with
             state := .idle, cueEntry := none, cue := none, target := 0, gain := 0, ceiling := 0
             fadeReason := none, fadeLink := none }).releaseSupply (.voice v),
        some (if vo.state = .fading then
            ⟨v, vo.fadeReason.getD .stopped, vo.fadeLink.getD .program, none, none⟩
          else ⟨v, reason, s.ownerLink (.voice v), none, none⟩))
     let plays := fun (n : CueId) (u : State) (x : Voice) (gain : Nat) =>
       let target := gain * vo.level / 1024
       let ask := target * 120 / 1024
       let w := u.askSupply (.voice v) ask
       let grant := (w.governor.supply (.voice v)).grant
       (vo.state = .playing → fetchCue v (.entry n) s =
         (w.setVoice v { x with target := target, ceiling := if grant = ask then target else grant * 1024 / 120 },
          none)) ∧
       (vo.state ≠ .playing → fetchCue v (.entry n) s = (u.setVoice v x, none))
     (∀ n : ClipId, s0.clip n =
       if heldClip vo = some n then (s.clip n).map fun c => { c with inUse := c.inUse - 1 } else s.clip n) ∧
     s0 = { s with clips := s0.clips } ∧
     ended .finish .finished ∧
     (∀ n : CueId,
       (s.cue n = none → ended (.entry n) .brokenList) ∧
       (∀ cue, s.cue n = some cue →
         (∀ frequency duration wave gain, cue.body = .tone frequency duration wave gain →
           plays n s0
             { vo with
               cueEntry := some n, cue := some ⟨cue.body, cue.next, none⟩, position := duration * 16, half := false
               repeats := .left 0 } gain) ∧
         (∀ duration, cue.body = .silence duration →
           plays n s0
             { vo with
               cueEntry := some n, cue := some ⟨cue.body, cue.next, none⟩, position := duration * 16, half := false
               repeats := .left 0 } 0) ∧
         (∀ k start len rep gain, cue.body = .clip k start len rep gain →
           (s0.clip k = none → ended (.entry n) .badClip) ∧
           (∀ c, s0.clip k = some c →
             let length := if len = 0 then c.length - start else min len (c.length - start)
             let size := if c.format = .pcm16At16k then 2 else 1
             (length < size → ended (.entry n) .badClip) ∧
             (size ≤ length → plays n (s0.setClip k (some { c with inUse := c.inUse + 1 }))
               { vo with
                 cueEntry := some n, position := 0, half := false
                 cue := some ⟨cue.body, cue.next, some ⟨c.base, c.format, c.base + start, length⟩⟩
                 repeats := if rep = 255 then .endless else .left rep } gain))))))

/-! ### Telemetry (Chapter 10) -/

/-- R169, R171: an accepted SUBSCRIBE takes the lowest empty entry: period and latency, which the model takes as
unsigned (log 45), clamped, a latency of 0 kept, a delta of 0 none; its first expiry makes it due at once. A bad item or
priority is BAD_VALUE, an UNMAPPED channel NO_SOURCE, a value it does not have BAD_VALUE, and a full table FULL. Nothing
else changes. R170: UNSUBSCRIBE, from either source. An id out of range, an empty entry, or one of the other link, is
BAD_VALUE, and nothing changes; otherwise the entry becomes empty, and the reply is OK. R171: PERIOD_EXPIRY starts the
period timer again. A subscription that is due is coalesced and keeps its due-since; another falls due, since now,
unless its value lies within delta of the last one sent, the difference of two positions wrapped and every other one
exact. Of an empty entry it does nothing (the model's choice, log 2). Nothing else changes. R173, Tables 10-2 and 10-3:
the reading of each item: its value as it stands, a state as its code; FRESH, clear for a channel's value that is not
there or not fresh; the motor's STARVED; and the age of a channel's values, 65,535 at most and 0 when the stamp is 0. -/
def Obligations.SubscriptionsComeAndFallDue : Prop :=
  (∀ (s : State) (src : Source) (i : Fin 8) (tag : Byte) (f : SubscribeFields), Accepts s src i →
     let answer := fun t r => exec (.subscribe src tag f) s = .next (answered t src i 0x48#8 tag r)
     ((∀ item, f.item ≠ namedItem item) ∨ 7 < f.priority → answer s (Reply.refuse .badValue)) ∧
     (∀ item, f.item = namedItem item → f.priority ≤ 7 →
       (∀ ch idx, item = .channel ch idx → (s.channel ch).state = .unmapped → answer s (Reply.refuse .noSource)) ∧
       (∀ ch idx, item = .channel ch idx → (s.channel ch).state ≠ .unmapped → (s.channel ch).valueCount ≤ idx.val →
         answer s (Reply.refuse .badValue)) ∧
       ((∀ ch idx, item = .channel ch idx →
           (s.channel ch).state ≠ .unmapped ∧ idx.val < (s.channel ch).valueCount) →
         ((∀ n, s.sub n ≠ none) → answer s (Reply.refuse .full)) ∧
         (∀ n, s.sub n = none → (∀ k, k < n → s.sub k ≠ none) →
           let period := max 10 (min 5000 f.period)
           let latency := if f.latency = 0 then 0 else max 10 (min 2000 f.latency)
           answer
             (s.setSub n
               (some
                 { link := src, item := item, period := period, latency := latency, priority := f.priority
                   delta := if f.delta = 0 then none else some (min 2000000000 f.delta)
                   lastSent := none, due := true, dueSince := s.time, coalesced := false, periodLeft := period }))
             (Reply.ok
               (decide (f.period < 10 ∨ 5000 < f.period ∨ (f.latency ≠ 0 ∧ (f.latency < 10 ∨ 2000 < f.latency)) ∨
                 2000000000 < f.delta))
               (.subscribed n period latency)))))) ∧
  (∀ (s : State) (src : Source) (i : Fin 8) (tag : Byte), Accepts s src i →
     (∀ n, 24 ≤ n → exec (.unsubscribe src tag n) s =
       .next (answered s src i 0x49#8 tag (Reply.refuse .badValue))) ∧
     (∀ n : SubId,
       ((s.sub n = none ∨ ∃ x, s.sub n = some x ∧ x.link ≠ src) → exec (.unsubscribe src tag n.val) s =
         .next (answered s src i 0x49#8 tag (Reply.refuse .badValue))) ∧
       (∀ x, s.sub n = some x → x.link = src → exec (.unsubscribe src tag n.val) s =
         .next (answered (s.setSub n none) src i 0x49#8 tag (Reply.ok false .empty))))) ∧
  (∀ (s : State) (n : SubId),
     (s.sub n = none → exec (.periodExpiry n) s = .next s) ∧
     (∀ x, s.sub n = some x →
       let value := (readItem s x.item).value
       let next := fun y => exec (.periodExpiry n) s = .next (s.setSub n (some y))
       (x.due = true → next { x with periodLeft := x.period, coalesced := true }) ∧
       (x.due = false → (x.delta = none ∨ x.lastSent = none) →
         next { x with periodLeft := x.period, due := true, dueSince := s.time }) ∧
       (∀ d last, x.due = false → x.delta = some d → x.lastSent = some last →
         let change : Nat :=
           match x.item with
           | .motorPos _ => (Word.diff (BitVec.ofInt 32 value) (BitVec.ofInt 32 last)).natAbs
           | _ => (value - last).natAbs
         (d ≤ change → next { x with periodLeft := x.period, due := true, dueSince := s.time }) ∧
         (change < d → next { x with periodLeft := x.period })))) ∧
  (∀ s : State,
     (∀ (ch : ChannelId) (idx : Fin 8),
       let c := s.channel ch
       let counted := c.state ≠ .unmapped ∧ idx.val < c.valueCount
       readItem s (.channel ch idx) =
         { value := if counted then c.values[idx] else 0, fresh := decide (counted ∧ c.fresh = true), starved := false
           age := if c.stamp = 0 then 0 else min 65535 (s.time - c.stamp).toNat }) ∧
     (∀ m : MotorId,
       let mo := s.motor m
       let code : Int :=
         match mo.state with
         | .idle => 0
         | .running => 1
         | .holding => 2
         | .braked => 3
         | .fault => 4
       let is := fun (item : Item) (value : Int) => readItem s item = ⟨value, true, mo.starved, 0⟩
       is (.motorPos m) mo.position.toInt ∧ is (.motorSpeed m) mo.vmeas ∧ is (.motorDuty m) mo.uOut ∧
       is (.motorState m) code) ∧
     (∀ v : VoiceId,
       let code : Int :=
         match (s.voice v).state with
         | .idle => 0
         | .playing => 1
         | .fading => 2
       readItem s (.voiceState v) = ⟨code, true, false, 0⟩) ∧
     (∀ p : PortId,
       let code : Int :=
         match (s.chain p).state with
         | .off => 0
         | .reset => 1
         | .train => 2
         | .rollcall => 3
         | .config => 4
         | .active => 5
         | .degraded => 6
         | .empty => 7
         | .fault => 8
       readItem s (.chainState p) = ⟨code, true, false, 0⟩) ∧
     readItem s .budgetUsed = ⟨s.governor.used, true, false, 0⟩)

/-! ### Invariants of every step -/

/-- R136: the clip store keeps its canonical form and lists no offset outside the store. -/
def Obligations.StoreInvKept : Prop := ∀ s t : State, StoreInv s → step s = .next t → StoreInv t

/-- R60, R65, R66: the sum of the ten grants stays within the budget, and the budget within 500 to 8000 mA. -/
def Obligations.BudgetInvKept : Prop := ∀ s t : State, BudgetInv s → step s = .next t → BudgetInv t

/-- R159: every owner record stays legal: none without a lease, TABLET always with one, and a lease with time left. -/
def Obligations.ClaimInvKept : Prop := ∀ s t : State, ClaimInv s → step s = .next t → ClaimInv t

/-- R180: a notice that is placed joins the tail of its link's queue while that holds fewer than 16, carrying the
overflow flag, which it clears; at 16 it is dropped and the overflow flag is set; on the tablet link while LINK_UP is
low it is not placed. A notice for both links is placed on the program link and then on the tablet link. R40, R156: the
link of an owner is the program link where there is none. No notice queue ever holds more than 16 notices. -/
def Obligations.NoticesArePlacedAndBounded : Prop :=
  (∀ (s : State) (link : Source) (b : NoticeBody),
     let l := s.link link
     (link = .tablet ∧ s.linkUp = false → s.place link b = s) ∧
     (Sends s link →
       (l.notices.length < 16 →
         s.place link b = s.setLink link { l with notices := l.notices ++ [⟨l.overflow, b⟩], overflow := false }) ∧
       (16 ≤ l.notices.length → s.place link b = s.setLink link { l with overflow := true })) ∧
     s.placeBoth b = (s.place .program b).place .tablet b ∧ (∀ r, s.ownerLink r = (s.owner r).getD .program)) ∧
  (∀ s t : State, NoticeInv s → step s = .next t → NoticeInv t)

/-- The state after reset satisfies the four invariants that every step keeps. -/
def Obligations.InvAtReset : Prop := Inv State.reset

end
end

