-- ==== Sys2Proof/Laws/State.lean ====
section
/-! SUPPORT. What each update of the state leaves in each field, and what reading after writing gives. -/

namespace Sys2Proof.Machine

/-! ### setMotor -/

@[simp] theorem State.setMotor_time (s : State) (m : MotorId) (x : Motor) : (s.setMotor m x).time = s.time := rfl
@[simp] theorem State.setMotor_linkUp (s : State) (m : MotorId) (x : Motor) : (s.setMotor m x).linkUp = s.linkUp :=
  rfl
@[simp] theorem State.setMotor_resetTaken (s : State) (m : MotorId) (x : Motor) : (s.setMotor m x).resetTaken = s.resetTaken :=
  rfl
@[simp] theorem State.setMotor_program (s : State) (m : MotorId) (x : Motor) : (s.setMotor m x).program = s.program :=
  rfl
@[simp] theorem State.setMotor_tablet (s : State) (m : MotorId) (x : Motor) : (s.setMotor m x).tablet = s.tablet :=
  rfl
@[simp] theorem State.setMotor_motorClaims (s : State) (m : MotorId) (x : Motor) : (s.setMotor m x).motorClaims = s.motorClaims :=
  rfl
@[simp] theorem State.setMotor_voiceClaims (s : State) (m : MotorId) (x : Motor) : (s.setMotor m x).voiceClaims = s.voiceClaims :=
  rfl
@[simp] theorem State.setMotor_encoder (s : State) (m : MotorId) (x : Motor) : (s.setMotor m x).encoder = s.encoder :=
  rfl
@[simp] theorem State.setMotor_pwm (s : State) (m : MotorId) (x : Motor) : (s.setMotor m x).pwm = s.pwm := rfl
@[simp] theorem State.setMotor_governor (s : State) (m : MotorId) (x : Motor) : (s.setMotor m x).governor = s.governor :=
  rfl
@[simp] theorem State.setMotor_chains (s : State) (m : MotorId) (x : Motor) : (s.setMotor m x).chains = s.chains :=
  rfl
@[simp] theorem State.setMotor_channels (s : State) (m : MotorId) (x : Motor) : (s.setMotor m x).channels = s.channels :=
  rfl
@[simp] theorem State.setMotor_copy (s : State) (m : MotorId) (x : Motor) : (s.setMotor m x).copy = s.copy := rfl
@[simp] theorem State.setMotor_watches (s : State) (m : MotorId) (x : Motor) : (s.setMotor m x).watches = s.watches :=
  rfl
@[simp] theorem State.setMotor_reactions (s : State) (m : MotorId) (x : Motor) : (s.setMotor m x).reactions = s.reactions :=
  rfl
@[simp] theorem State.setMotor_store (s : State) (m : MotorId) (x : Motor) : (s.setMotor m x).store = s.store := rfl
@[simp] theorem State.setMotor_windows (s : State) (m : MotorId) (x : Motor) : (s.setMotor m x).windows = s.windows :=
  rfl
@[simp] theorem State.setMotor_clips (s : State) (m : MotorId) (x : Motor) : (s.setMotor m x).clips = s.clips := rfl
@[simp] theorem State.setMotor_cues (s : State) (m : MotorId) (x : Motor) : (s.setMotor m x).cues = s.cues := rfl
@[simp] theorem State.setMotor_voices (s : State) (m : MotorId) (x : Motor) : (s.setMotor m x).voices = s.voices :=
  rfl
@[simp] theorem State.setMotor_master (s : State) (m : MotorId) (x : Motor) : (s.setMotor m x).master = s.master :=
  rfl
@[simp] theorem State.setMotor_aout (s : State) (m : MotorId) (x : Motor) : (s.setMotor m x).aout = s.aout := rfl
@[simp] theorem State.setMotor_subs (s : State) (m : MotorId) (x : Motor) : (s.setMotor m x).subs = s.subs := rfl
@[simp] theorem State.setMotor_pending (s : State) (m : MotorId) (x : Motor) : (s.setMotor m x).pending = s.pending :=
  rfl

/-! ### setVoice -/

@[simp] theorem State.setVoice_time (s : State) (v : VoiceId) (x : Voice) : (s.setVoice v x).time = s.time := rfl
@[simp] theorem State.setVoice_linkUp (s : State) (v : VoiceId) (x : Voice) : (s.setVoice v x).linkUp = s.linkUp :=
  rfl
@[simp] theorem State.setVoice_resetTaken (s : State) (v : VoiceId) (x : Voice) : (s.setVoice v x).resetTaken = s.resetTaken :=
  rfl
@[simp] theorem State.setVoice_program (s : State) (v : VoiceId) (x : Voice) : (s.setVoice v x).program = s.program :=
  rfl
@[simp] theorem State.setVoice_tablet (s : State) (v : VoiceId) (x : Voice) : (s.setVoice v x).tablet = s.tablet :=
  rfl
@[simp] theorem State.setVoice_motorClaims (s : State) (v : VoiceId) (x : Voice) : (s.setVoice v x).motorClaims = s.motorClaims :=
  rfl
@[simp] theorem State.setVoice_voiceClaims (s : State) (v : VoiceId) (x : Voice) : (s.setVoice v x).voiceClaims = s.voiceClaims :=
  rfl
@[simp] theorem State.setVoice_motors (s : State) (v : VoiceId) (x : Voice) : (s.setVoice v x).motors = s.motors :=
  rfl
@[simp] theorem State.setVoice_encoder (s : State) (v : VoiceId) (x : Voice) : (s.setVoice v x).encoder = s.encoder :=
  rfl
@[simp] theorem State.setVoice_pwm (s : State) (v : VoiceId) (x : Voice) : (s.setVoice v x).pwm = s.pwm := rfl
@[simp] theorem State.setVoice_governor (s : State) (v : VoiceId) (x : Voice) : (s.setVoice v x).governor = s.governor :=
  rfl
@[simp] theorem State.setVoice_chains (s : State) (v : VoiceId) (x : Voice) : (s.setVoice v x).chains = s.chains :=
  rfl
@[simp] theorem State.setVoice_channels (s : State) (v : VoiceId) (x : Voice) : (s.setVoice v x).channels = s.channels :=
  rfl
@[simp] theorem State.setVoice_copy (s : State) (v : VoiceId) (x : Voice) : (s.setVoice v x).copy = s.copy := rfl
@[simp] theorem State.setVoice_watches (s : State) (v : VoiceId) (x : Voice) : (s.setVoice v x).watches = s.watches :=
  rfl
@[simp] theorem State.setVoice_reactions (s : State) (v : VoiceId) (x : Voice) : (s.setVoice v x).reactions = s.reactions :=
  rfl
@[simp] theorem State.setVoice_store (s : State) (v : VoiceId) (x : Voice) : (s.setVoice v x).store = s.store := rfl
@[simp] theorem State.setVoice_windows (s : State) (v : VoiceId) (x : Voice) : (s.setVoice v x).windows = s.windows :=
  rfl
@[simp] theorem State.setVoice_clips (s : State) (v : VoiceId) (x : Voice) : (s.setVoice v x).clips = s.clips := rfl
@[simp] theorem State.setVoice_cues (s : State) (v : VoiceId) (x : Voice) : (s.setVoice v x).cues = s.cues := rfl
@[simp] theorem State.setVoice_master (s : State) (v : VoiceId) (x : Voice) : (s.setVoice v x).master = s.master :=
  rfl
@[simp] theorem State.setVoice_aout (s : State) (v : VoiceId) (x : Voice) : (s.setVoice v x).aout = s.aout := rfl
@[simp] theorem State.setVoice_subs (s : State) (v : VoiceId) (x : Voice) : (s.setVoice v x).subs = s.subs := rfl
@[simp] theorem State.setVoice_pending (s : State) (v : VoiceId) (x : Voice) : (s.setVoice v x).pending = s.pending :=
  rfl

/-! ### setChain -/

@[simp] theorem State.setChain_time (s : State) (p : PortId) (x : Chain) : (s.setChain p x).time = s.time := rfl
@[simp] theorem State.setChain_linkUp (s : State) (p : PortId) (x : Chain) : (s.setChain p x).linkUp = s.linkUp := rfl
@[simp] theorem State.setChain_resetTaken (s : State) (p : PortId) (x : Chain) : (s.setChain p x).resetTaken = s.resetTaken :=
  rfl
@[simp] theorem State.setChain_program (s : State) (p : PortId) (x : Chain) : (s.setChain p x).program = s.program :=
  rfl
@[simp] theorem State.setChain_tablet (s : State) (p : PortId) (x : Chain) : (s.setChain p x).tablet = s.tablet := rfl
@[simp] theorem State.setChain_motorClaims (s : State) (p : PortId) (x : Chain) : (s.setChain p x).motorClaims = s.motorClaims :=
  rfl
@[simp] theorem State.setChain_voiceClaims (s : State) (p : PortId) (x : Chain) : (s.setChain p x).voiceClaims = s.voiceClaims :=
  rfl
@[simp] theorem State.setChain_motors (s : State) (p : PortId) (x : Chain) : (s.setChain p x).motors = s.motors := rfl
@[simp] theorem State.setChain_encoder (s : State) (p : PortId) (x : Chain) : (s.setChain p x).encoder = s.encoder :=
  rfl
@[simp] theorem State.setChain_pwm (s : State) (p : PortId) (x : Chain) : (s.setChain p x).pwm = s.pwm := rfl
@[simp] theorem State.setChain_governor (s : State) (p : PortId) (x : Chain) : (s.setChain p x).governor = s.governor :=
  rfl
@[simp] theorem State.setChain_channels (s : State) (p : PortId) (x : Chain) : (s.setChain p x).channels = s.channels :=
  rfl
@[simp] theorem State.setChain_copy (s : State) (p : PortId) (x : Chain) : (s.setChain p x).copy = s.copy := rfl
@[simp] theorem State.setChain_watches (s : State) (p : PortId) (x : Chain) : (s.setChain p x).watches = s.watches :=
  rfl
@[simp] theorem State.setChain_reactions (s : State) (p : PortId) (x : Chain) : (s.setChain p x).reactions = s.reactions :=
  rfl
@[simp] theorem State.setChain_store (s : State) (p : PortId) (x : Chain) : (s.setChain p x).store = s.store := rfl
@[simp] theorem State.setChain_windows (s : State) (p : PortId) (x : Chain) : (s.setChain p x).windows = s.windows :=
  rfl
@[simp] theorem State.setChain_clips (s : State) (p : PortId) (x : Chain) : (s.setChain p x).clips = s.clips := rfl
@[simp] theorem State.setChain_cues (s : State) (p : PortId) (x : Chain) : (s.setChain p x).cues = s.cues := rfl
@[simp] theorem State.setChain_voices (s : State) (p : PortId) (x : Chain) : (s.setChain p x).voices = s.voices := rfl
@[simp] theorem State.setChain_master (s : State) (p : PortId) (x : Chain) : (s.setChain p x).master = s.master := rfl
@[simp] theorem State.setChain_aout (s : State) (p : PortId) (x : Chain) : (s.setChain p x).aout = s.aout := rfl
@[simp] theorem State.setChain_subs (s : State) (p : PortId) (x : Chain) : (s.setChain p x).subs = s.subs := rfl
@[simp] theorem State.setChain_pending (s : State) (p : PortId) (x : Chain) : (s.setChain p x).pending = s.pending :=
  rfl

/-! ### setChannel -/

@[simp] theorem State.setChannel_time (s : State) (c : ChannelId) (x : Channel) : (s.setChannel c x).time = s.time :=
  rfl
@[simp] theorem State.setChannel_linkUp (s : State) (c : ChannelId) (x : Channel) : (s.setChannel c x).linkUp = s.linkUp :=
  rfl
@[simp] theorem State.setChannel_resetTaken (s : State) (c : ChannelId) (x : Channel) : (s.setChannel c x).resetTaken = s.resetTaken :=
  rfl
@[simp] theorem State.setChannel_program (s : State) (c : ChannelId) (x : Channel) : (s.setChannel c x).program = s.program :=
  rfl
@[simp] theorem State.setChannel_tablet (s : State) (c : ChannelId) (x : Channel) : (s.setChannel c x).tablet = s.tablet :=
  rfl
@[simp] theorem State.setChannel_motorClaims (s : State) (c : ChannelId) (x : Channel) : (s.setChannel c x).motorClaims = s.motorClaims :=
  rfl
@[simp] theorem State.setChannel_voiceClaims (s : State) (c : ChannelId) (x : Channel) : (s.setChannel c x).voiceClaims = s.voiceClaims :=
  rfl
@[simp] theorem State.setChannel_motors (s : State) (c : ChannelId) (x : Channel) : (s.setChannel c x).motors = s.motors :=
  rfl
@[simp] theorem State.setChannel_encoder (s : State) (c : ChannelId) (x : Channel) : (s.setChannel c x).encoder = s.encoder :=
  rfl
@[simp] theorem State.setChannel_pwm (s : State) (c : ChannelId) (x : Channel) : (s.setChannel c x).pwm = s.pwm := rfl
@[simp] theorem State.setChannel_governor (s : State) (c : ChannelId) (x : Channel) : (s.setChannel c x).governor = s.governor :=
  rfl
@[simp] theorem State.setChannel_chains (s : State) (c : ChannelId) (x : Channel) : (s.setChannel c x).chains = s.chains :=
  rfl
@[simp] theorem State.setChannel_copy (s : State) (c : ChannelId) (x : Channel) : (s.setChannel c x).copy = s.copy :=
  rfl
@[simp] theorem State.setChannel_watches (s : State) (c : ChannelId) (x : Channel) : (s.setChannel c x).watches = s.watches :=
  rfl
@[simp] theorem State.setChannel_reactions (s : State) (c : ChannelId) (x : Channel) : (s.setChannel c x).reactions = s.reactions :=
  rfl
@[simp] theorem State.setChannel_store (s : State) (c : ChannelId) (x : Channel) : (s.setChannel c x).store = s.store :=
  rfl
@[simp] theorem State.setChannel_windows (s : State) (c : ChannelId) (x : Channel) : (s.setChannel c x).windows = s.windows :=
  rfl
@[simp] theorem State.setChannel_clips (s : State) (c : ChannelId) (x : Channel) : (s.setChannel c x).clips = s.clips :=
  rfl
@[simp] theorem State.setChannel_cues (s : State) (c : ChannelId) (x : Channel) : (s.setChannel c x).cues = s.cues :=
  rfl
@[simp] theorem State.setChannel_voices (s : State) (c : ChannelId) (x : Channel) : (s.setChannel c x).voices = s.voices :=
  rfl
@[simp] theorem State.setChannel_master (s : State) (c : ChannelId) (x : Channel) : (s.setChannel c x).master = s.master :=
  rfl
@[simp] theorem State.setChannel_aout (s : State) (c : ChannelId) (x : Channel) : (s.setChannel c x).aout = s.aout :=
  rfl
@[simp] theorem State.setChannel_subs (s : State) (c : ChannelId) (x : Channel) : (s.setChannel c x).subs = s.subs :=
  rfl
@[simp] theorem State.setChannel_pending (s : State) (c : ChannelId) (x : Channel) : (s.setChannel c x).pending = s.pending :=
  rfl

/-! ### setWatch -/

@[simp] theorem State.setWatch_time (s : State) (n : EntryId) (x : Option Watch) : (s.setWatch n x).time = s.time :=
  rfl
@[simp] theorem State.setWatch_linkUp (s : State) (n : EntryId) (x : Option Watch) : (s.setWatch n x).linkUp = s.linkUp :=
  rfl
@[simp] theorem State.setWatch_resetTaken (s : State) (n : EntryId) (x : Option Watch) : (s.setWatch n x).resetTaken = s.resetTaken :=
  rfl
@[simp] theorem State.setWatch_program (s : State) (n : EntryId) (x : Option Watch) : (s.setWatch n x).program = s.program :=
  rfl
@[simp] theorem State.setWatch_tablet (s : State) (n : EntryId) (x : Option Watch) : (s.setWatch n x).tablet = s.tablet :=
  rfl
@[simp] theorem State.setWatch_motorClaims (s : State) (n : EntryId) (x : Option Watch) : (s.setWatch n x).motorClaims = s.motorClaims :=
  rfl
@[simp] theorem State.setWatch_voiceClaims (s : State) (n : EntryId) (x : Option Watch) : (s.setWatch n x).voiceClaims = s.voiceClaims :=
  rfl
@[simp] theorem State.setWatch_motors (s : State) (n : EntryId) (x : Option Watch) : (s.setWatch n x).motors = s.motors :=
  rfl
@[simp] theorem State.setWatch_encoder (s : State) (n : EntryId) (x : Option Watch) : (s.setWatch n x).encoder = s.encoder :=
  rfl
@[simp] theorem State.setWatch_pwm (s : State) (n : EntryId) (x : Option Watch) : (s.setWatch n x).pwm = s.pwm := rfl
@[simp] theorem State.setWatch_governor (s : State) (n : EntryId) (x : Option Watch) : (s.setWatch n x).governor = s.governor :=
  rfl
@[simp] theorem State.setWatch_chains (s : State) (n : EntryId) (x : Option Watch) : (s.setWatch n x).chains = s.chains :=
  rfl
@[simp] theorem State.setWatch_channels (s : State) (n : EntryId) (x : Option Watch) : (s.setWatch n x).channels = s.channels :=
  rfl
@[simp] theorem State.setWatch_copy (s : State) (n : EntryId) (x : Option Watch) : (s.setWatch n x).copy = s.copy :=
  rfl
@[simp] theorem State.setWatch_reactions (s : State) (n : EntryId) (x : Option Watch) : (s.setWatch n x).reactions = s.reactions :=
  rfl
@[simp] theorem State.setWatch_store (s : State) (n : EntryId) (x : Option Watch) : (s.setWatch n x).store = s.store :=
  rfl
@[simp] theorem State.setWatch_windows (s : State) (n : EntryId) (x : Option Watch) : (s.setWatch n x).windows = s.windows :=
  rfl
@[simp] theorem State.setWatch_clips (s : State) (n : EntryId) (x : Option Watch) : (s.setWatch n x).clips = s.clips :=
  rfl
@[simp] theorem State.setWatch_cues (s : State) (n : EntryId) (x : Option Watch) : (s.setWatch n x).cues = s.cues :=
  rfl
@[simp] theorem State.setWatch_voices (s : State) (n : EntryId) (x : Option Watch) : (s.setWatch n x).voices = s.voices :=
  rfl
@[simp] theorem State.setWatch_master (s : State) (n : EntryId) (x : Option Watch) : (s.setWatch n x).master = s.master :=
  rfl
@[simp] theorem State.setWatch_aout (s : State) (n : EntryId) (x : Option Watch) : (s.setWatch n x).aout = s.aout :=
  rfl
@[simp] theorem State.setWatch_subs (s : State) (n : EntryId) (x : Option Watch) : (s.setWatch n x).subs = s.subs :=
  rfl
@[simp] theorem State.setWatch_pending (s : State) (n : EntryId) (x : Option Watch) : (s.setWatch n x).pending = s.pending :=
  rfl

/-! ### setReaction -/

@[simp] theorem State.setReaction_time (s : State) (n : EntryId) (x : Option Reaction) : (s.setReaction n x).time = s.time :=
  rfl
@[simp] theorem State.setReaction_linkUp (s : State) (n : EntryId) (x : Option Reaction) : (s.setReaction n x).linkUp = s.linkUp :=
  rfl
@[simp] theorem State.setReaction_resetTaken (s : State) (n : EntryId) (x : Option Reaction) : (s.setReaction n x).resetTaken = s.resetTaken :=
  rfl
@[simp] theorem State.setReaction_program (s : State) (n : EntryId) (x : Option Reaction) : (s.setReaction n x).program = s.program :=
  rfl
@[simp] theorem State.setReaction_tablet (s : State) (n : EntryId) (x : Option Reaction) : (s.setReaction n x).tablet = s.tablet :=
  rfl
@[simp] theorem State.setReaction_motorClaims (s : State) (n : EntryId) (x : Option Reaction) : (s.setReaction n x).motorClaims = s.motorClaims :=
  rfl
@[simp] theorem State.setReaction_voiceClaims (s : State) (n : EntryId) (x : Option Reaction) : (s.setReaction n x).voiceClaims = s.voiceClaims :=
  rfl
@[simp] theorem State.setReaction_motors (s : State) (n : EntryId) (x : Option Reaction) : (s.setReaction n x).motors = s.motors :=
  rfl
@[simp] theorem State.setReaction_encoder (s : State) (n : EntryId) (x : Option Reaction) : (s.setReaction n x).encoder = s.encoder :=
  rfl
@[simp] theorem State.setReaction_pwm (s : State) (n : EntryId) (x : Option Reaction) : (s.setReaction n x).pwm = s.pwm :=
  rfl
@[simp] theorem State.setReaction_governor (s : State) (n : EntryId) (x : Option Reaction) : (s.setReaction n x).governor = s.governor :=
  rfl
@[simp] theorem State.setReaction_chains (s : State) (n : EntryId) (x : Option Reaction) : (s.setReaction n x).chains = s.chains :=
  rfl
@[simp] theorem State.setReaction_channels (s : State) (n : EntryId) (x : Option Reaction) : (s.setReaction n x).channels = s.channels :=
  rfl
@[simp] theorem State.setReaction_copy (s : State) (n : EntryId) (x : Option Reaction) : (s.setReaction n x).copy = s.copy :=
  rfl
@[simp] theorem State.setReaction_watches (s : State) (n : EntryId) (x : Option Reaction) : (s.setReaction n x).watches = s.watches :=
  rfl
@[simp] theorem State.setReaction_store (s : State) (n : EntryId) (x : Option Reaction) : (s.setReaction n x).store = s.store :=
  rfl
@[simp] theorem State.setReaction_windows (s : State) (n : EntryId) (x : Option Reaction) : (s.setReaction n x).windows = s.windows :=
  rfl
@[simp] theorem State.setReaction_clips (s : State) (n : EntryId) (x : Option Reaction) : (s.setReaction n x).clips = s.clips :=
  rfl
@[simp] theorem State.setReaction_cues (s : State) (n : EntryId) (x : Option Reaction) : (s.setReaction n x).cues = s.cues :=
  rfl
@[simp] theorem State.setReaction_voices (s : State) (n : EntryId) (x : Option Reaction) : (s.setReaction n x).voices = s.voices :=
  rfl
@[simp] theorem State.setReaction_master (s : State) (n : EntryId) (x : Option Reaction) : (s.setReaction n x).master = s.master :=
  rfl
@[simp] theorem State.setReaction_aout (s : State) (n : EntryId) (x : Option Reaction) : (s.setReaction n x).aout = s.aout :=
  rfl
@[simp] theorem State.setReaction_subs (s : State) (n : EntryId) (x : Option Reaction) : (s.setReaction n x).subs = s.subs :=
  rfl
@[simp] theorem State.setReaction_pending (s : State) (n : EntryId) (x : Option Reaction) : (s.setReaction n x).pending = s.pending :=
  rfl

/-! ### setClip -/

@[simp] theorem State.setClip_time (s : State) (n : ClipId) (x : Option Clip) : (s.setClip n x).time = s.time := rfl
@[simp] theorem State.setClip_linkUp (s : State) (n : ClipId) (x : Option Clip) : (s.setClip n x).linkUp = s.linkUp :=
  rfl
@[simp] theorem State.setClip_resetTaken (s : State) (n : ClipId) (x : Option Clip) : (s.setClip n x).resetTaken = s.resetTaken :=
  rfl
@[simp] theorem State.setClip_program (s : State) (n : ClipId) (x : Option Clip) : (s.setClip n x).program = s.program :=
  rfl
@[simp] theorem State.setClip_tablet (s : State) (n : ClipId) (x : Option Clip) : (s.setClip n x).tablet = s.tablet :=
  rfl
@[simp] theorem State.setClip_motorClaims (s : State) (n : ClipId) (x : Option Clip) : (s.setClip n x).motorClaims = s.motorClaims :=
  rfl
@[simp] theorem State.setClip_voiceClaims (s : State) (n : ClipId) (x : Option Clip) : (s.setClip n x).voiceClaims = s.voiceClaims :=
  rfl
@[simp] theorem State.setClip_motors (s : State) (n : ClipId) (x : Option Clip) : (s.setClip n x).motors = s.motors :=
  rfl
@[simp] theorem State.setClip_encoder (s : State) (n : ClipId) (x : Option Clip) : (s.setClip n x).encoder = s.encoder :=
  rfl
@[simp] theorem State.setClip_pwm (s : State) (n : ClipId) (x : Option Clip) : (s.setClip n x).pwm = s.pwm := rfl
@[simp] theorem State.setClip_governor (s : State) (n : ClipId) (x : Option Clip) : (s.setClip n x).governor = s.governor :=
  rfl
@[simp] theorem State.setClip_chains (s : State) (n : ClipId) (x : Option Clip) : (s.setClip n x).chains = s.chains :=
  rfl
@[simp] theorem State.setClip_channels (s : State) (n : ClipId) (x : Option Clip) : (s.setClip n x).channels = s.channels :=
  rfl
@[simp] theorem State.setClip_copy (s : State) (n : ClipId) (x : Option Clip) : (s.setClip n x).copy = s.copy := rfl
@[simp] theorem State.setClip_watches (s : State) (n : ClipId) (x : Option Clip) : (s.setClip n x).watches = s.watches :=
  rfl
@[simp] theorem State.setClip_reactions (s : State) (n : ClipId) (x : Option Clip) : (s.setClip n x).reactions = s.reactions :=
  rfl
@[simp] theorem State.setClip_store (s : State) (n : ClipId) (x : Option Clip) : (s.setClip n x).store = s.store :=
  rfl
@[simp] theorem State.setClip_windows (s : State) (n : ClipId) (x : Option Clip) : (s.setClip n x).windows = s.windows :=
  rfl
@[simp] theorem State.setClip_cues (s : State) (n : ClipId) (x : Option Clip) : (s.setClip n x).cues = s.cues := rfl
@[simp] theorem State.setClip_voices (s : State) (n : ClipId) (x : Option Clip) : (s.setClip n x).voices = s.voices :=
  rfl
@[simp] theorem State.setClip_master (s : State) (n : ClipId) (x : Option Clip) : (s.setClip n x).master = s.master :=
  rfl
@[simp] theorem State.setClip_aout (s : State) (n : ClipId) (x : Option Clip) : (s.setClip n x).aout = s.aout := rfl
@[simp] theorem State.setClip_subs (s : State) (n : ClipId) (x : Option Clip) : (s.setClip n x).subs = s.subs := rfl
@[simp] theorem State.setClip_pending (s : State) (n : ClipId) (x : Option Clip) : (s.setClip n x).pending = s.pending :=
  rfl

/-! ### setCue -/

@[simp] theorem State.setCue_time (s : State) (n : CueId) (x : Option Cue) : (s.setCue n x).time = s.time := rfl
@[simp] theorem State.setCue_linkUp (s : State) (n : CueId) (x : Option Cue) : (s.setCue n x).linkUp = s.linkUp := rfl
@[simp] theorem State.setCue_resetTaken (s : State) (n : CueId) (x : Option Cue) : (s.setCue n x).resetTaken = s.resetTaken :=
  rfl
@[simp] theorem State.setCue_program (s : State) (n : CueId) (x : Option Cue) : (s.setCue n x).program = s.program :=
  rfl
@[simp] theorem State.setCue_tablet (s : State) (n : CueId) (x : Option Cue) : (s.setCue n x).tablet = s.tablet := rfl
@[simp] theorem State.setCue_motorClaims (s : State) (n : CueId) (x : Option Cue) : (s.setCue n x).motorClaims = s.motorClaims :=
  rfl
@[simp] theorem State.setCue_voiceClaims (s : State) (n : CueId) (x : Option Cue) : (s.setCue n x).voiceClaims = s.voiceClaims :=
  rfl
@[simp] theorem State.setCue_motors (s : State) (n : CueId) (x : Option Cue) : (s.setCue n x).motors = s.motors := rfl
@[simp] theorem State.setCue_encoder (s : State) (n : CueId) (x : Option Cue) : (s.setCue n x).encoder = s.encoder :=
  rfl
@[simp] theorem State.setCue_pwm (s : State) (n : CueId) (x : Option Cue) : (s.setCue n x).pwm = s.pwm := rfl
@[simp] theorem State.setCue_governor (s : State) (n : CueId) (x : Option Cue) : (s.setCue n x).governor = s.governor :=
  rfl
@[simp] theorem State.setCue_chains (s : State) (n : CueId) (x : Option Cue) : (s.setCue n x).chains = s.chains := rfl
@[simp] theorem State.setCue_channels (s : State) (n : CueId) (x : Option Cue) : (s.setCue n x).channels = s.channels :=
  rfl
@[simp] theorem State.setCue_copy (s : State) (n : CueId) (x : Option Cue) : (s.setCue n x).copy = s.copy := rfl
@[simp] theorem State.setCue_watches (s : State) (n : CueId) (x : Option Cue) : (s.setCue n x).watches = s.watches :=
  rfl
@[simp] theorem State.setCue_reactions (s : State) (n : CueId) (x : Option Cue) : (s.setCue n x).reactions = s.reactions :=
  rfl
@[simp] theorem State.setCue_store (s : State) (n : CueId) (x : Option Cue) : (s.setCue n x).store = s.store := rfl
@[simp] theorem State.setCue_windows (s : State) (n : CueId) (x : Option Cue) : (s.setCue n x).windows = s.windows :=
  rfl
@[simp] theorem State.setCue_clips (s : State) (n : CueId) (x : Option Cue) : (s.setCue n x).clips = s.clips := rfl
@[simp] theorem State.setCue_voices (s : State) (n : CueId) (x : Option Cue) : (s.setCue n x).voices = s.voices := rfl
@[simp] theorem State.setCue_master (s : State) (n : CueId) (x : Option Cue) : (s.setCue n x).master = s.master := rfl
@[simp] theorem State.setCue_aout (s : State) (n : CueId) (x : Option Cue) : (s.setCue n x).aout = s.aout := rfl
@[simp] theorem State.setCue_subs (s : State) (n : CueId) (x : Option Cue) : (s.setCue n x).subs = s.subs := rfl
@[simp] theorem State.setCue_pending (s : State) (n : CueId) (x : Option Cue) : (s.setCue n x).pending = s.pending :=
  rfl

/-! ### setSub -/

@[simp] theorem State.setSub_time (s : State) (n : SubId) (x : Option Subscription) : (s.setSub n x).time = s.time :=
  rfl
@[simp] theorem State.setSub_linkUp (s : State) (n : SubId) (x : Option Subscription) : (s.setSub n x).linkUp = s.linkUp :=
  rfl
@[simp] theorem State.setSub_resetTaken (s : State) (n : SubId) (x : Option Subscription) : (s.setSub n x).resetTaken = s.resetTaken :=
  rfl
@[simp] theorem State.setSub_program (s : State) (n : SubId) (x : Option Subscription) : (s.setSub n x).program = s.program :=
  rfl
@[simp] theorem State.setSub_tablet (s : State) (n : SubId) (x : Option Subscription) : (s.setSub n x).tablet = s.tablet :=
  rfl
@[simp] theorem State.setSub_motorClaims (s : State) (n : SubId) (x : Option Subscription) : (s.setSub n x).motorClaims = s.motorClaims :=
  rfl
@[simp] theorem State.setSub_voiceClaims (s : State) (n : SubId) (x : Option Subscription) : (s.setSub n x).voiceClaims = s.voiceClaims :=
  rfl
@[simp] theorem State.setSub_motors (s : State) (n : SubId) (x : Option Subscription) : (s.setSub n x).motors = s.motors :=
  rfl
@[simp] theorem State.setSub_encoder (s : State) (n : SubId) (x : Option Subscription) : (s.setSub n x).encoder = s.encoder :=
  rfl
@[simp] theorem State.setSub_pwm (s : State) (n : SubId) (x : Option Subscription) : (s.setSub n x).pwm = s.pwm := rfl
@[simp] theorem State.setSub_governor (s : State) (n : SubId) (x : Option Subscription) : (s.setSub n x).governor = s.governor :=
  rfl
@[simp] theorem State.setSub_chains (s : State) (n : SubId) (x : Option Subscription) : (s.setSub n x).chains = s.chains :=
  rfl
@[simp] theorem State.setSub_channels (s : State) (n : SubId) (x : Option Subscription) : (s.setSub n x).channels = s.channels :=
  rfl
@[simp] theorem State.setSub_copy (s : State) (n : SubId) (x : Option Subscription) : (s.setSub n x).copy = s.copy :=
  rfl
@[simp] theorem State.setSub_watches (s : State) (n : SubId) (x : Option Subscription) : (s.setSub n x).watches = s.watches :=
  rfl
@[simp] theorem State.setSub_reactions (s : State) (n : SubId) (x : Option Subscription) : (s.setSub n x).reactions = s.reactions :=
  rfl
@[simp] theorem State.setSub_store (s : State) (n : SubId) (x : Option Subscription) : (s.setSub n x).store = s.store :=
  rfl
@[simp] theorem State.setSub_windows (s : State) (n : SubId) (x : Option Subscription) : (s.setSub n x).windows = s.windows :=
  rfl
@[simp] theorem State.setSub_clips (s : State) (n : SubId) (x : Option Subscription) : (s.setSub n x).clips = s.clips :=
  rfl
@[simp] theorem State.setSub_cues (s : State) (n : SubId) (x : Option Subscription) : (s.setSub n x).cues = s.cues :=
  rfl
@[simp] theorem State.setSub_voices (s : State) (n : SubId) (x : Option Subscription) : (s.setSub n x).voices = s.voices :=
  rfl
@[simp] theorem State.setSub_master (s : State) (n : SubId) (x : Option Subscription) : (s.setSub n x).master = s.master :=
  rfl
@[simp] theorem State.setSub_aout (s : State) (n : SubId) (x : Option Subscription) : (s.setSub n x).aout = s.aout :=
  rfl
@[simp] theorem State.setSub_pending (s : State) (n : SubId) (x : Option Subscription) : (s.setSub n x).pending = s.pending :=
  rfl

/-! ### askSupply -/

@[simp] theorem State.askSupply_time (s : State) (r : Resource) (a : Nat) : (s.askSupply r a).time = s.time := rfl
@[simp] theorem State.askSupply_linkUp (s : State) (r : Resource) (a : Nat) : (s.askSupply r a).linkUp = s.linkUp :=
  rfl
@[simp] theorem State.askSupply_resetTaken (s : State) (r : Resource) (a : Nat) : (s.askSupply r a).resetTaken = s.resetTaken :=
  rfl
@[simp] theorem State.askSupply_program (s : State) (r : Resource) (a : Nat) : (s.askSupply r a).program = s.program :=
  rfl
@[simp] theorem State.askSupply_tablet (s : State) (r : Resource) (a : Nat) : (s.askSupply r a).tablet = s.tablet :=
  rfl
@[simp] theorem State.askSupply_motorClaims (s : State) (r : Resource) (a : Nat) : (s.askSupply r a).motorClaims = s.motorClaims :=
  rfl
@[simp] theorem State.askSupply_voiceClaims (s : State) (r : Resource) (a : Nat) : (s.askSupply r a).voiceClaims = s.voiceClaims :=
  rfl
@[simp] theorem State.askSupply_motors (s : State) (r : Resource) (a : Nat) : (s.askSupply r a).motors = s.motors :=
  rfl
@[simp] theorem State.askSupply_encoder (s : State) (r : Resource) (a : Nat) : (s.askSupply r a).encoder = s.encoder :=
  rfl
@[simp] theorem State.askSupply_pwm (s : State) (r : Resource) (a : Nat) : (s.askSupply r a).pwm = s.pwm := rfl
@[simp] theorem State.askSupply_chains (s : State) (r : Resource) (a : Nat) : (s.askSupply r a).chains = s.chains :=
  rfl
@[simp] theorem State.askSupply_channels (s : State) (r : Resource) (a : Nat) : (s.askSupply r a).channels = s.channels :=
  rfl
@[simp] theorem State.askSupply_copy (s : State) (r : Resource) (a : Nat) : (s.askSupply r a).copy = s.copy := rfl
@[simp] theorem State.askSupply_watches (s : State) (r : Resource) (a : Nat) : (s.askSupply r a).watches = s.watches :=
  rfl
@[simp] theorem State.askSupply_reactions (s : State) (r : Resource) (a : Nat) : (s.askSupply r a).reactions = s.reactions :=
  rfl
@[simp] theorem State.askSupply_store (s : State) (r : Resource) (a : Nat) : (s.askSupply r a).store = s.store := rfl
@[simp] theorem State.askSupply_windows (s : State) (r : Resource) (a : Nat) : (s.askSupply r a).windows = s.windows :=
  rfl
@[simp] theorem State.askSupply_clips (s : State) (r : Resource) (a : Nat) : (s.askSupply r a).clips = s.clips := rfl
@[simp] theorem State.askSupply_cues (s : State) (r : Resource) (a : Nat) : (s.askSupply r a).cues = s.cues := rfl
@[simp] theorem State.askSupply_voices (s : State) (r : Resource) (a : Nat) : (s.askSupply r a).voices = s.voices :=
  rfl
@[simp] theorem State.askSupply_master (s : State) (r : Resource) (a : Nat) : (s.askSupply r a).master = s.master :=
  rfl
@[simp] theorem State.askSupply_aout (s : State) (r : Resource) (a : Nat) : (s.askSupply r a).aout = s.aout := rfl
@[simp] theorem State.askSupply_subs (s : State) (r : Resource) (a : Nat) : (s.askSupply r a).subs = s.subs := rfl
@[simp] theorem State.askSupply_pending (s : State) (r : Resource) (a : Nat) : (s.askSupply r a).pending = s.pending :=
  rfl

/-! ### releaseSupply -/

@[simp] theorem State.releaseSupply_time (s : State) (r : Resource) : (s.releaseSupply r).time = s.time := rfl
@[simp] theorem State.releaseSupply_linkUp (s : State) (r : Resource) : (s.releaseSupply r).linkUp = s.linkUp := rfl
@[simp] theorem State.releaseSupply_resetTaken (s : State) (r : Resource) : (s.releaseSupply r).resetTaken = s.resetTaken :=
  rfl
@[simp] theorem State.releaseSupply_program (s : State) (r : Resource) : (s.releaseSupply r).program = s.program :=
  rfl
@[simp] theorem State.releaseSupply_tablet (s : State) (r : Resource) : (s.releaseSupply r).tablet = s.tablet := rfl
@[simp] theorem State.releaseSupply_motorClaims (s : State) (r : Resource) : (s.releaseSupply r).motorClaims = s.motorClaims :=
  rfl
@[simp] theorem State.releaseSupply_voiceClaims (s : State) (r : Resource) : (s.releaseSupply r).voiceClaims = s.voiceClaims :=
  rfl
@[simp] theorem State.releaseSupply_motors (s : State) (r : Resource) : (s.releaseSupply r).motors = s.motors := rfl
@[simp] theorem State.releaseSupply_encoder (s : State) (r : Resource) : (s.releaseSupply r).encoder = s.encoder :=
  rfl
@[simp] theorem State.releaseSupply_pwm (s : State) (r : Resource) : (s.releaseSupply r).pwm = s.pwm := rfl
@[simp] theorem State.releaseSupply_chains (s : State) (r : Resource) : (s.releaseSupply r).chains = s.chains := rfl
@[simp] theorem State.releaseSupply_channels (s : State) (r : Resource) : (s.releaseSupply r).channels = s.channels :=
  rfl
@[simp] theorem State.releaseSupply_copy (s : State) (r : Resource) : (s.releaseSupply r).copy = s.copy := rfl
@[simp] theorem State.releaseSupply_watches (s : State) (r : Resource) : (s.releaseSupply r).watches = s.watches :=
  rfl
@[simp] theorem State.releaseSupply_reactions (s : State) (r : Resource) : (s.releaseSupply r).reactions = s.reactions :=
  rfl
@[simp] theorem State.releaseSupply_store (s : State) (r : Resource) : (s.releaseSupply r).store = s.store := rfl
@[simp] theorem State.releaseSupply_windows (s : State) (r : Resource) : (s.releaseSupply r).windows = s.windows :=
  rfl
@[simp] theorem State.releaseSupply_clips (s : State) (r : Resource) : (s.releaseSupply r).clips = s.clips := rfl
@[simp] theorem State.releaseSupply_cues (s : State) (r : Resource) : (s.releaseSupply r).cues = s.cues := rfl
@[simp] theorem State.releaseSupply_voices (s : State) (r : Resource) : (s.releaseSupply r).voices = s.voices := rfl
@[simp] theorem State.releaseSupply_master (s : State) (r : Resource) : (s.releaseSupply r).master = s.master := rfl
@[simp] theorem State.releaseSupply_aout (s : State) (r : Resource) : (s.releaseSupply r).aout = s.aout := rfl
@[simp] theorem State.releaseSupply_subs (s : State) (r : Resource) : (s.releaseSupply r).subs = s.subs := rfl
@[simp] theorem State.releaseSupply_pending (s : State) (r : Resource) : (s.releaseSupply r).pending = s.pending :=
  rfl

/-! ### setLink -/

@[simp] theorem State.setLink_time (s : State) (src : Source) (l : LinkUnit) : (s.setLink src l).time = s.time :=
  by cases src <;> rfl
@[simp] theorem State.setLink_linkUp (s : State) (src : Source) (l : LinkUnit) : (s.setLink src l).linkUp = s.linkUp :=
  by cases src <;> rfl
@[simp] theorem State.setLink_resetTaken (s : State) (src : Source) (l : LinkUnit) : (s.setLink src l).resetTaken = s.resetTaken :=
  by cases src <;> rfl
@[simp] theorem State.setLink_motorClaims (s : State) (src : Source) (l : LinkUnit) : (s.setLink src l).motorClaims = s.motorClaims :=
  by cases src <;> rfl
@[simp] theorem State.setLink_voiceClaims (s : State) (src : Source) (l : LinkUnit) : (s.setLink src l).voiceClaims = s.voiceClaims :=
  by cases src <;> rfl
@[simp] theorem State.setLink_motors (s : State) (src : Source) (l : LinkUnit) : (s.setLink src l).motors = s.motors :=
  by cases src <;> rfl
@[simp] theorem State.setLink_encoder (s : State) (src : Source) (l : LinkUnit) : (s.setLink src l).encoder = s.encoder :=
  by cases src <;> rfl
@[simp] theorem State.setLink_pwm (s : State) (src : Source) (l : LinkUnit) : (s.setLink src l).pwm = s.pwm :=
  by cases src <;> rfl
@[simp] theorem State.setLink_governor (s : State) (src : Source) (l : LinkUnit) : (s.setLink src l).governor = s.governor :=
  by cases src <;> rfl
@[simp] theorem State.setLink_chains (s : State) (src : Source) (l : LinkUnit) : (s.setLink src l).chains = s.chains :=
  by cases src <;> rfl
@[simp] theorem State.setLink_channels (s : State) (src : Source) (l : LinkUnit) : (s.setLink src l).channels = s.channels :=
  by cases src <;> rfl
@[simp] theorem State.setLink_copy (s : State) (src : Source) (l : LinkUnit) : (s.setLink src l).copy = s.copy :=
  by cases src <;> rfl
@[simp] theorem State.setLink_watches (s : State) (src : Source) (l : LinkUnit) : (s.setLink src l).watches = s.watches :=
  by cases src <;> rfl
@[simp] theorem State.setLink_reactions (s : State) (src : Source) (l : LinkUnit) : (s.setLink src l).reactions = s.reactions :=
  by cases src <;> rfl
@[simp] theorem State.setLink_store (s : State) (src : Source) (l : LinkUnit) : (s.setLink src l).store = s.store :=
  by cases src <;> rfl
@[simp] theorem State.setLink_windows (s : State) (src : Source) (l : LinkUnit) : (s.setLink src l).windows = s.windows :=
  by cases src <;> rfl
@[simp] theorem State.setLink_clips (s : State) (src : Source) (l : LinkUnit) : (s.setLink src l).clips = s.clips :=
  by cases src <;> rfl
@[simp] theorem State.setLink_cues (s : State) (src : Source) (l : LinkUnit) : (s.setLink src l).cues = s.cues :=
  by cases src <;> rfl
@[simp] theorem State.setLink_voices (s : State) (src : Source) (l : LinkUnit) : (s.setLink src l).voices = s.voices :=
  by cases src <;> rfl
@[simp] theorem State.setLink_master (s : State) (src : Source) (l : LinkUnit) : (s.setLink src l).master = s.master :=
  by cases src <;> rfl
@[simp] theorem State.setLink_aout (s : State) (src : Source) (l : LinkUnit) : (s.setLink src l).aout = s.aout :=
  by cases src <;> rfl
@[simp] theorem State.setLink_subs (s : State) (src : Source) (l : LinkUnit) : (s.setLink src l).subs = s.subs :=
  by cases src <;> rfl
@[simp] theorem State.setLink_pending (s : State) (src : Source) (l : LinkUnit) : (s.setLink src l).pending = s.pending :=
  by cases src <;> rfl

/-! ### setClaim -/

@[simp] theorem State.setClaim_time (s : State) (r : Resource) (c : Claim) : (s.setClaim r c).time = s.time :=
  by cases r <;> rfl
@[simp] theorem State.setClaim_linkUp (s : State) (r : Resource) (c : Claim) : (s.setClaim r c).linkUp = s.linkUp :=
  by cases r <;> rfl
@[simp] theorem State.setClaim_resetTaken (s : State) (r : Resource) (c : Claim) : (s.setClaim r c).resetTaken = s.resetTaken :=
  by cases r <;> rfl
@[simp] theorem State.setClaim_program (s : State) (r : Resource) (c : Claim) : (s.setClaim r c).program = s.program :=
  by cases r <;> rfl
@[simp] theorem State.setClaim_tablet (s : State) (r : Resource) (c : Claim) : (s.setClaim r c).tablet = s.tablet :=
  by cases r <;> rfl
@[simp] theorem State.setClaim_motors (s : State) (r : Resource) (c : Claim) : (s.setClaim r c).motors = s.motors :=
  by cases r <;> rfl
@[simp] theorem State.setClaim_encoder (s : State) (r : Resource) (c : Claim) : (s.setClaim r c).encoder = s.encoder :=
  by cases r <;> rfl
@[simp] theorem State.setClaim_pwm (s : State) (r : Resource) (c : Claim) : (s.setClaim r c).pwm = s.pwm :=
  by cases r <;> rfl
@[simp] theorem State.setClaim_governor (s : State) (r : Resource) (c : Claim) : (s.setClaim r c).governor = s.governor :=
  by cases r <;> rfl
@[simp] theorem State.setClaim_chains (s : State) (r : Resource) (c : Claim) : (s.setClaim r c).chains = s.chains :=
  by cases r <;> rfl
@[simp] theorem State.setClaim_channels (s : State) (r : Resource) (c : Claim) : (s.setClaim r c).channels = s.channels :=
  by cases r <;> rfl
@[simp] theorem State.setClaim_copy (s : State) (r : Resource) (c : Claim) : (s.setClaim r c).copy = s.copy :=
  by cases r <;> rfl
@[simp] theorem State.setClaim_watches (s : State) (r : Resource) (c : Claim) : (s.setClaim r c).watches = s.watches :=
  by cases r <;> rfl
@[simp] theorem State.setClaim_reactions (s : State) (r : Resource) (c : Claim) : (s.setClaim r c).reactions = s.reactions :=
  by cases r <;> rfl
@[simp] theorem State.setClaim_store (s : State) (r : Resource) (c : Claim) : (s.setClaim r c).store = s.store :=
  by cases r <;> rfl
@[simp] theorem State.setClaim_windows (s : State) (r : Resource) (c : Claim) : (s.setClaim r c).windows = s.windows :=
  by cases r <;> rfl
@[simp] theorem State.setClaim_clips (s : State) (r : Resource) (c : Claim) : (s.setClaim r c).clips = s.clips :=
  by cases r <;> rfl
@[simp] theorem State.setClaim_cues (s : State) (r : Resource) (c : Claim) : (s.setClaim r c).cues = s.cues :=
  by cases r <;> rfl
@[simp] theorem State.setClaim_voices (s : State) (r : Resource) (c : Claim) : (s.setClaim r c).voices = s.voices :=
  by cases r <;> rfl
@[simp] theorem State.setClaim_master (s : State) (r : Resource) (c : Claim) : (s.setClaim r c).master = s.master :=
  by cases r <;> rfl
@[simp] theorem State.setClaim_aout (s : State) (r : Resource) (c : Claim) : (s.setClaim r c).aout = s.aout :=
  by cases r <;> rfl
@[simp] theorem State.setClaim_subs (s : State) (r : Resource) (c : Claim) : (s.setClaim r c).subs = s.subs :=
  by cases r <;> rfl
@[simp] theorem State.setClaim_pending (s : State) (r : Resource) (c : Claim) : (s.setClaim r c).pending = s.pending :=
  by cases r <;> rfl

/-! ### Reading after writing one record of a bank -/

theorem State.motor_setMotor (s : State) (a b : MotorId) (x : Motor) :
    (s.setMotor a x).motor b = if a = b then x else s.motor b := by
  simp [State.motor, State.setMotor, Vector.getElem_set, Fin.ext_iff]

@[simp] theorem State.motor_setMotor_self (s : State) (a : MotorId) (x : Motor) : (s.setMotor a x).motor a = x := by
  simp [State.motor_setMotor]

theorem State.motor_setMotor_ne (s : State) {a b : MotorId} (x : Motor) (h : a ≠ b) :
    (s.setMotor a x).motor b = s.motor b := by
  simp [State.motor_setMotor, h]

theorem State.voice_setVoice (s : State) (a b : VoiceId) (x : Voice) :
    (s.setVoice a x).voice b = if a = b then x else s.voice b := by
  simp [State.voice, State.setVoice, Vector.getElem_set, Fin.ext_iff]

@[simp] theorem State.voice_setVoice_self (s : State) (a : VoiceId) (x : Voice) : (s.setVoice a x).voice a = x := by
  simp [State.voice_setVoice]

theorem State.voice_setVoice_ne (s : State) {a b : VoiceId} (x : Voice) (h : a ≠ b) :
    (s.setVoice a x).voice b = s.voice b := by
  simp [State.voice_setVoice, h]

theorem State.chain_setChain (s : State) (a b : PortId) (x : Chain) :
    (s.setChain a x).chain b = if a = b then x else s.chain b := by
  simp [State.chain, State.setChain, Vector.getElem_set, Fin.ext_iff]

@[simp] theorem State.chain_setChain_self (s : State) (a : PortId) (x : Chain) : (s.setChain a x).chain a = x := by
  simp [State.chain_setChain]

theorem State.chain_setChain_ne (s : State) {a b : PortId} (x : Chain) (h : a ≠ b) :
    (s.setChain a x).chain b = s.chain b := by
  simp [State.chain_setChain, h]

theorem State.channel_setChannel (s : State) (a b : ChannelId) (x : Channel) :
    (s.setChannel a x).channel b = if a = b then x else s.channel b := by
  simp [State.channel, State.setChannel, Vector.getElem_set, Fin.ext_iff]

@[simp] theorem State.channel_setChannel_self (s : State) (a : ChannelId) (x : Channel) : (s.setChannel a x).channel a = x := by
  simp [State.channel_setChannel]

theorem State.channel_setChannel_ne (s : State) {a b : ChannelId} (x : Channel) (h : a ≠ b) :
    (s.setChannel a x).channel b = s.channel b := by
  simp [State.channel_setChannel, h]

theorem State.watch_setWatch (s : State) (a b : EntryId) (x : Option Watch) :
    (s.setWatch a x).watch b = if a = b then x else s.watch b := by
  simp [State.watch, State.setWatch, Vector.getElem_set, Fin.ext_iff]

@[simp] theorem State.watch_setWatch_self (s : State) (a : EntryId) (x : Option Watch) : (s.setWatch a x).watch a = x := by
  simp [State.watch_setWatch]

theorem State.watch_setWatch_ne (s : State) {a b : EntryId} (x : Option Watch) (h : a ≠ b) :
    (s.setWatch a x).watch b = s.watch b := by
  simp [State.watch_setWatch, h]

theorem State.reaction_setReaction (s : State) (a b : EntryId) (x : Option Reaction) :
    (s.setReaction a x).reaction b = if a = b then x else s.reaction b := by
  simp [State.reaction, State.setReaction, Vector.getElem_set, Fin.ext_iff]

@[simp] theorem State.reaction_setReaction_self (s : State) (a : EntryId) (x : Option Reaction) : (s.setReaction a x).reaction a = x := by
  simp [State.reaction_setReaction]

theorem State.reaction_setReaction_ne (s : State) {a b : EntryId} (x : Option Reaction) (h : a ≠ b) :
    (s.setReaction a x).reaction b = s.reaction b := by
  simp [State.reaction_setReaction, h]

theorem State.clip_setClip (s : State) (a b : ClipId) (x : Option Clip) :
    (s.setClip a x).clip b = if a = b then x else s.clip b := by
  simp [State.clip, State.setClip, Vector.getElem_set, Fin.ext_iff]

@[simp] theorem State.clip_setClip_self (s : State) (a : ClipId) (x : Option Clip) : (s.setClip a x).clip a = x := by
  simp [State.clip_setClip]

theorem State.clip_setClip_ne (s : State) {a b : ClipId} (x : Option Clip) (h : a ≠ b) :
    (s.setClip a x).clip b = s.clip b := by
  simp [State.clip_setClip, h]

theorem State.cue_setCue (s : State) (a b : CueId) (x : Option Cue) :
    (s.setCue a x).cue b = if a = b then x else s.cue b := by
  simp [State.cue, State.setCue, Vector.getElem_set, Fin.ext_iff]

@[simp] theorem State.cue_setCue_self (s : State) (a : CueId) (x : Option Cue) : (s.setCue a x).cue a = x := by
  simp [State.cue_setCue]

theorem State.cue_setCue_ne (s : State) {a b : CueId} (x : Option Cue) (h : a ≠ b) :
    (s.setCue a x).cue b = s.cue b := by
  simp [State.cue_setCue, h]

theorem State.sub_setSub (s : State) (a b : SubId) (x : Option Subscription) :
    (s.setSub a x).sub b = if a = b then x else s.sub b := by
  simp [State.sub, State.setSub, Vector.getElem_set, Fin.ext_iff]

@[simp] theorem State.sub_setSub_self (s : State) (a : SubId) (x : Option Subscription) : (s.setSub a x).sub a = x := by
  simp [State.sub_setSub]

theorem State.sub_setSub_ne (s : State) {a b : SubId} (x : Option Subscription) (h : a ≠ b) :
    (s.setSub a x).sub b = s.sub b := by
  simp [State.sub_setSub, h]

/-! ### Links, claims and supplies -/

@[simp] theorem State.link_setLink_self (s : State) (src : Source) (l : LinkUnit) : (s.setLink src l).link src = l := by
  cases src <;> rfl

theorem State.link_setLink_ne (s : State) {a b : Source} (l : LinkUnit) (h : a ≠ b) :
    (s.setLink a l).link b = s.link b := by
  cases a <;> cases b <;> first | rfl | exact absurd rfl h

@[simp] theorem State.setLink_setLink (s : State) (src : Source) (l l' : LinkUnit) :
    (s.setLink src l).setLink src l' = s.setLink src l' := by
  cases src <;> rfl

@[simp] theorem State.setLink_link (s : State) (src : Source) : s.setLink src (s.link src) = s := by
  cases src <;> rfl

@[simp] theorem State.claim_setClaim_self (s : State) (r : Resource) (c : Claim) : (s.setClaim r c).claim r = c := by
  cases r <;> simp [State.claim, State.setClaim]

theorem State.claim_setClaim (s : State) (a b : Resource) (c : Claim) :
    (s.setClaim a c).claim b = if a = b then c else s.claim b := by
  cases a <;> cases b <;> simp [State.claim, State.setClaim, Vector.getElem_set, Fin.ext_iff]

theorem State.claim_setClaim_ne (s : State) {a b : Resource} (c : Claim) (h : a ≠ b) :
    (s.setClaim a c).claim b = s.claim b := by
  simp [State.claim_setClaim, h]

@[simp] theorem Governor.supply_setSupply_self (g : Governor) (r : Resource) (x : Supply) :
    (g.setSupply r x).supply r = x := by
  cases r <;> simp [Governor.supply, Governor.setSupply]

theorem Governor.supply_setSupply (g : Governor) (a b : Resource) (x : Supply) :
    (g.setSupply a x).supply b = if a = b then x else g.supply b := by
  cases a <;> cases b <;> simp [Governor.supply, Governor.setSupply, Vector.getElem_set, Fin.ext_iff]

@[simp] theorem Governor.setSupply_budget (g : Governor) (r : Resource) (x : Supply) :
    (g.setSupply r x).budget = g.budget := by
  cases r <;> rfl

@[simp] theorem State.motor_setLink (s : State) (src : Source) (l : LinkUnit) (a : MotorId) :
    (s.setLink src l).motor a = s.motor a := by
  cases src <;> rfl

@[simp] theorem State.voice_setLink (s : State) (src : Source) (l : LinkUnit) (a : VoiceId) :
    (s.setLink src l).voice a = s.voice a := by
  cases src <;> rfl

@[simp] theorem State.chain_setLink (s : State) (src : Source) (l : LinkUnit) (a : PortId) :
    (s.setLink src l).chain a = s.chain a := by
  cases src <;> rfl

@[simp] theorem State.channel_setLink (s : State) (src : Source) (l : LinkUnit) (a : ChannelId) :
    (s.setLink src l).channel a = s.channel a := by
  cases src <;> rfl

@[simp] theorem State.watch_setLink (s : State) (src : Source) (l : LinkUnit) (a : EntryId) :
    (s.setLink src l).watch a = s.watch a := by
  cases src <;> rfl

@[simp] theorem State.reaction_setLink (s : State) (src : Source) (l : LinkUnit) (a : EntryId) :
    (s.setLink src l).reaction a = s.reaction a := by
  cases src <;> rfl

@[simp] theorem State.clip_setLink (s : State) (src : Source) (l : LinkUnit) (a : ClipId) :
    (s.setLink src l).clip a = s.clip a := by
  cases src <;> rfl

@[simp] theorem State.cue_setLink (s : State) (src : Source) (l : LinkUnit) (a : CueId) :
    (s.setLink src l).cue a = s.cue a := by
  cases src <;> rfl

@[simp] theorem State.sub_setLink (s : State) (src : Source) (l : LinkUnit) (a : SubId) :
    (s.setLink src l).sub a = s.sub a := by
  cases src <;> rfl

@[simp] theorem State.claim_setLink (s : State) (src : Source) (l : LinkUnit) (r : Resource) :
    (s.setLink src l).claim r = s.claim r := by
  cases src <;> cases r <;> rfl

@[simp] theorem State.owner_setLink (s : State) (src : Source) (l : LinkUnit) (r : Resource) :
    (s.setLink src l).owner r = s.owner r := by
  simp [State.owner]

@[simp] theorem State.module_setLink (s : State) (src : Source) (l : LinkUnit) (p : PortId) (k : ModulePos) :
    (s.setLink src l).module p k = s.module p k := by
  cases src <;> rfl

@[simp] theorem State.takesFrames_setLink (s : State) (src a : Source) (l : LinkUnit) :
    (s.setLink src l).takesFrames a = s.takesFrames a := by
  cases src <;> cases a <;> rfl

end Sys2Proof.Machine
end

