-- ==== Sys2Proof/Laws/Links.lean ====
section
/-! SUPPORT. The link units: a notice placed (R180), a reply slot reserved and its reply made waiting (R178, R179), and
the form every request takes once it is accepted. -/

namespace Sys2Proof.Machine

open Sys2Proof.Safety

/-! ### Links of the state -/

/-- A link set reads back, and the other link reads as before. -/
theorem State.link_setLink (s : State) (a b : Source) (l : LinkUnit) :
    (s.setLink a l).link b = if b = a then l else s.link b := by cases a <;> cases b <;> rfl

/-! ### Notices (R180) -/

/-- R180: a notice placed leaves everything of the link but its notices and the overflow flag. -/
theorem LinkUnit.place_noticesOnly (l : LinkUnit) (b : NoticeBody) : NoticesOnly l (l.place b) := by
  unfold LinkUnit.place NoticesOnly; split <;> rfl

/-- R180: a notice placed keeps the bound of 16. -/
theorem LinkUnit.place_bound (l : LinkUnit) (b : NoticeBody) : QueueBoundKept l (l.place b) := by
  intro h
  unfold LinkUnit.place
  split
  · simp; omega
  · exact h

/-- R180: a notice is placed on its own link, and not on the tablet link while LINK_UP is low. -/
theorem State.link_place (s : State) (a b : Source) (n : NoticeBody) :
    (s.place a n).link b =
      if b = a ∧ ¬(a = .tablet ∧ s.linkUp = false) then (s.link b).place n else s.link b := by
  unfold State.place
  split
  · rename_i h; rw [if_neg (fun k => k.2 h)]
  · rename_i h
    rw [State.link_setLink]
    by_cases e : b = a
    · subst e; rw [if_pos rfl, if_pos ⟨rfl, h⟩]
    · rw [if_neg e, if_neg (fun k => e k.1)]

@[simp] theorem State.place_time (s : State) (a : Source) (n : NoticeBody) : (s.place a n).time = s.time := by
  unfold State.place; split <;> [rfl; cases a <;> rfl]
@[simp] theorem State.place_linkUp (s : State) (a : Source) (n : NoticeBody) : (s.place a n).linkUp = s.linkUp := by
  unfold State.place; split <;> [rfl; cases a <;> rfl]
@[simp] theorem State.place_resetTaken (s : State) (a : Source) (n : NoticeBody) : (s.place a n).resetTaken = s.resetTaken := by
  unfold State.place; split <;> [rfl; cases a <;> rfl]
@[simp] theorem State.place_motorClaims (s : State) (a : Source) (n : NoticeBody) : (s.place a n).motorClaims = s.motorClaims := by
  unfold State.place; split <;> [rfl; cases a <;> rfl]
@[simp] theorem State.place_voiceClaims (s : State) (a : Source) (n : NoticeBody) : (s.place a n).voiceClaims = s.voiceClaims := by
  unfold State.place; split <;> [rfl; cases a <;> rfl]
@[simp] theorem State.place_motors (s : State) (a : Source) (n : NoticeBody) : (s.place a n).motors = s.motors := by
  unfold State.place; split <;> [rfl; cases a <;> rfl]
@[simp] theorem State.place_encoder (s : State) (a : Source) (n : NoticeBody) : (s.place a n).encoder = s.encoder := by
  unfold State.place; split <;> [rfl; cases a <;> rfl]
@[simp] theorem State.place_pwm (s : State) (a : Source) (n : NoticeBody) : (s.place a n).pwm = s.pwm := by
  unfold State.place; split <;> [rfl; cases a <;> rfl]
@[simp] theorem State.place_governor (s : State) (a : Source) (n : NoticeBody) : (s.place a n).governor = s.governor := by
  unfold State.place; split <;> [rfl; cases a <;> rfl]
@[simp] theorem State.place_chains (s : State) (a : Source) (n : NoticeBody) : (s.place a n).chains = s.chains := by
  unfold State.place; split <;> [rfl; cases a <;> rfl]
@[simp] theorem State.place_channels (s : State) (a : Source) (n : NoticeBody) : (s.place a n).channels = s.channels := by
  unfold State.place; split <;> [rfl; cases a <;> rfl]
@[simp] theorem State.place_copy (s : State) (a : Source) (n : NoticeBody) : (s.place a n).copy = s.copy := by
  unfold State.place; split <;> [rfl; cases a <;> rfl]
@[simp] theorem State.place_watches (s : State) (a : Source) (n : NoticeBody) : (s.place a n).watches = s.watches := by
  unfold State.place; split <;> [rfl; cases a <;> rfl]
@[simp] theorem State.place_reactions (s : State) (a : Source) (n : NoticeBody) : (s.place a n).reactions = s.reactions := by
  unfold State.place; split <;> [rfl; cases a <;> rfl]
@[simp] theorem State.place_store (s : State) (a : Source) (n : NoticeBody) : (s.place a n).store = s.store := by
  unfold State.place; split <;> [rfl; cases a <;> rfl]
@[simp] theorem State.place_windows (s : State) (a : Source) (n : NoticeBody) : (s.place a n).windows = s.windows := by
  unfold State.place; split <;> [rfl; cases a <;> rfl]
@[simp] theorem State.place_clips (s : State) (a : Source) (n : NoticeBody) : (s.place a n).clips = s.clips := by
  unfold State.place; split <;> [rfl; cases a <;> rfl]
@[simp] theorem State.place_cues (s : State) (a : Source) (n : NoticeBody) : (s.place a n).cues = s.cues := by
  unfold State.place; split <;> [rfl; cases a <;> rfl]
@[simp] theorem State.place_voices (s : State) (a : Source) (n : NoticeBody) : (s.place a n).voices = s.voices := by
  unfold State.place; split <;> [rfl; cases a <;> rfl]
@[simp] theorem State.place_master (s : State) (a : Source) (n : NoticeBody) : (s.place a n).master = s.master := by
  unfold State.place; split <;> [rfl; cases a <;> rfl]
@[simp] theorem State.place_aout (s : State) (a : Source) (n : NoticeBody) : (s.place a n).aout = s.aout := by
  unfold State.place; split <;> [rfl; cases a <;> rfl]
@[simp] theorem State.place_subs (s : State) (a : Source) (n : NoticeBody) : (s.place a n).subs = s.subs := by
  unfold State.place; split <;> [rfl; cases a <;> rfl]
@[simp] theorem State.place_pending (s : State) (a : Source) (n : NoticeBody) : (s.place a n).pending = s.pending := by
  unfold State.place; split <;> [rfl; cases a <;> rfl]

/-! ### Reserved slots and waiting replies (R178, R179) -/

@[simp] theorem reserved_time (s : State) (src : Source) (i : Fin 8) (kind tag : Byte) :
    (reserved s src i kind tag).time = s.time := by cases src <;> rfl
@[simp] theorem reserved_linkUp (s : State) (src : Source) (i : Fin 8) (kind tag : Byte) :
    (reserved s src i kind tag).linkUp = s.linkUp := by cases src <;> rfl
@[simp] theorem reserved_resetTaken (s : State) (src : Source) (i : Fin 8) (kind tag : Byte) :
    (reserved s src i kind tag).resetTaken = s.resetTaken := by cases src <;> rfl
@[simp] theorem reserved_motorClaims (s : State) (src : Source) (i : Fin 8) (kind tag : Byte) :
    (reserved s src i kind tag).motorClaims = s.motorClaims := by cases src <;> rfl
@[simp] theorem reserved_voiceClaims (s : State) (src : Source) (i : Fin 8) (kind tag : Byte) :
    (reserved s src i kind tag).voiceClaims = s.voiceClaims := by cases src <;> rfl
@[simp] theorem reserved_motors (s : State) (src : Source) (i : Fin 8) (kind tag : Byte) :
    (reserved s src i kind tag).motors = s.motors := by cases src <;> rfl
@[simp] theorem reserved_encoder (s : State) (src : Source) (i : Fin 8) (kind tag : Byte) :
    (reserved s src i kind tag).encoder = s.encoder := by cases src <;> rfl
@[simp] theorem reserved_pwm (s : State) (src : Source) (i : Fin 8) (kind tag : Byte) :
    (reserved s src i kind tag).pwm = s.pwm := by cases src <;> rfl
@[simp] theorem reserved_governor (s : State) (src : Source) (i : Fin 8) (kind tag : Byte) :
    (reserved s src i kind tag).governor = s.governor := by cases src <;> rfl
@[simp] theorem reserved_chains (s : State) (src : Source) (i : Fin 8) (kind tag : Byte) :
    (reserved s src i kind tag).chains = s.chains := by cases src <;> rfl
@[simp] theorem reserved_channels (s : State) (src : Source) (i : Fin 8) (kind tag : Byte) :
    (reserved s src i kind tag).channels = s.channels := by cases src <;> rfl
@[simp] theorem reserved_copy (s : State) (src : Source) (i : Fin 8) (kind tag : Byte) :
    (reserved s src i kind tag).copy = s.copy := by cases src <;> rfl
@[simp] theorem reserved_watches (s : State) (src : Source) (i : Fin 8) (kind tag : Byte) :
    (reserved s src i kind tag).watches = s.watches := by cases src <;> rfl
@[simp] theorem reserved_reactions (s : State) (src : Source) (i : Fin 8) (kind tag : Byte) :
    (reserved s src i kind tag).reactions = s.reactions := by cases src <;> rfl
@[simp] theorem reserved_store (s : State) (src : Source) (i : Fin 8) (kind tag : Byte) :
    (reserved s src i kind tag).store = s.store := by cases src <;> rfl
@[simp] theorem reserved_windows (s : State) (src : Source) (i : Fin 8) (kind tag : Byte) :
    (reserved s src i kind tag).windows = s.windows := by cases src <;> rfl
@[simp] theorem reserved_clips (s : State) (src : Source) (i : Fin 8) (kind tag : Byte) :
    (reserved s src i kind tag).clips = s.clips := by cases src <;> rfl
@[simp] theorem reserved_cues (s : State) (src : Source) (i : Fin 8) (kind tag : Byte) :
    (reserved s src i kind tag).cues = s.cues := by cases src <;> rfl
@[simp] theorem reserved_voices (s : State) (src : Source) (i : Fin 8) (kind tag : Byte) :
    (reserved s src i kind tag).voices = s.voices := by cases src <;> rfl
@[simp] theorem reserved_master (s : State) (src : Source) (i : Fin 8) (kind tag : Byte) :
    (reserved s src i kind tag).master = s.master := by cases src <;> rfl
@[simp] theorem reserved_aout (s : State) (src : Source) (i : Fin 8) (kind tag : Byte) :
    (reserved s src i kind tag).aout = s.aout := by cases src <;> rfl
@[simp] theorem reserved_subs (s : State) (src : Source) (i : Fin 8) (kind tag : Byte) :
    (reserved s src i kind tag).subs = s.subs := by cases src <;> rfl
@[simp] theorem reserved_pending (s : State) (src : Source) (i : Fin 8) (kind tag : Byte) :
    (reserved s src i kind tag).pending = s.pending := by cases src <;> rfl
@[simp] theorem answered_time (s : State) (src : Source) (i : Fin 8) (kind tag : Byte) (r : Reply) :
    (answered s src i kind tag r).time = s.time := by cases src <;> rfl
@[simp] theorem answered_linkUp (s : State) (src : Source) (i : Fin 8) (kind tag : Byte) (r : Reply) :
    (answered s src i kind tag r).linkUp = s.linkUp := by cases src <;> rfl
@[simp] theorem answered_resetTaken (s : State) (src : Source) (i : Fin 8) (kind tag : Byte) (r : Reply) :
    (answered s src i kind tag r).resetTaken = s.resetTaken := by cases src <;> rfl
@[simp] theorem answered_motorClaims (s : State) (src : Source) (i : Fin 8) (kind tag : Byte) (r : Reply) :
    (answered s src i kind tag r).motorClaims = s.motorClaims := by cases src <;> rfl
@[simp] theorem answered_voiceClaims (s : State) (src : Source) (i : Fin 8) (kind tag : Byte) (r : Reply) :
    (answered s src i kind tag r).voiceClaims = s.voiceClaims := by cases src <;> rfl
@[simp] theorem answered_motors (s : State) (src : Source) (i : Fin 8) (kind tag : Byte) (r : Reply) :
    (answered s src i kind tag r).motors = s.motors := by cases src <;> rfl
@[simp] theorem answered_encoder (s : State) (src : Source) (i : Fin 8) (kind tag : Byte) (r : Reply) :
    (answered s src i kind tag r).encoder = s.encoder := by cases src <;> rfl
@[simp] theorem answered_pwm (s : State) (src : Source) (i : Fin 8) (kind tag : Byte) (r : Reply) :
    (answered s src i kind tag r).pwm = s.pwm := by cases src <;> rfl
@[simp] theorem answered_governor (s : State) (src : Source) (i : Fin 8) (kind tag : Byte) (r : Reply) :
    (answered s src i kind tag r).governor = s.governor := by cases src <;> rfl
@[simp] theorem answered_chains (s : State) (src : Source) (i : Fin 8) (kind tag : Byte) (r : Reply) :
    (answered s src i kind tag r).chains = s.chains := by cases src <;> rfl
@[simp] theorem answered_channels (s : State) (src : Source) (i : Fin 8) (kind tag : Byte) (r : Reply) :
    (answered s src i kind tag r).channels = s.channels := by cases src <;> rfl
@[simp] theorem answered_copy (s : State) (src : Source) (i : Fin 8) (kind tag : Byte) (r : Reply) :
    (answered s src i kind tag r).copy = s.copy := by cases src <;> rfl
@[simp] theorem answered_watches (s : State) (src : Source) (i : Fin 8) (kind tag : Byte) (r : Reply) :
    (answered s src i kind tag r).watches = s.watches := by cases src <;> rfl
@[simp] theorem answered_reactions (s : State) (src : Source) (i : Fin 8) (kind tag : Byte) (r : Reply) :
    (answered s src i kind tag r).reactions = s.reactions := by cases src <;> rfl
@[simp] theorem answered_store (s : State) (src : Source) (i : Fin 8) (kind tag : Byte) (r : Reply) :
    (answered s src i kind tag r).store = s.store := by cases src <;> rfl
@[simp] theorem answered_windows (s : State) (src : Source) (i : Fin 8) (kind tag : Byte) (r : Reply) :
    (answered s src i kind tag r).windows = s.windows := by cases src <;> rfl
@[simp] theorem answered_clips (s : State) (src : Source) (i : Fin 8) (kind tag : Byte) (r : Reply) :
    (answered s src i kind tag r).clips = s.clips := by cases src <;> rfl
@[simp] theorem answered_cues (s : State) (src : Source) (i : Fin 8) (kind tag : Byte) (r : Reply) :
    (answered s src i kind tag r).cues = s.cues := by cases src <;> rfl
@[simp] theorem answered_voices (s : State) (src : Source) (i : Fin 8) (kind tag : Byte) (r : Reply) :
    (answered s src i kind tag r).voices = s.voices := by cases src <;> rfl
@[simp] theorem answered_master (s : State) (src : Source) (i : Fin 8) (kind tag : Byte) (r : Reply) :
    (answered s src i kind tag r).master = s.master := by cases src <;> rfl
@[simp] theorem answered_aout (s : State) (src : Source) (i : Fin 8) (kind tag : Byte) (r : Reply) :
    (answered s src i kind tag r).aout = s.aout := by cases src <;> rfl
@[simp] theorem answered_subs (s : State) (src : Source) (i : Fin 8) (kind tag : Byte) (r : Reply) :
    (answered s src i kind tag r).subs = s.subs := by cases src <;> rfl
@[simp] theorem answered_pending (s : State) (src : Source) (i : Fin 8) (kind tag : Byte) (r : Reply) :
    (answered s src i kind tag r).pending = s.pending := by cases src <;> rfl
@[simp] theorem State.post_time (s : State) (src : Source) (i : Fin 8) (r : Reply) :
    (s.post src i r).time = s.time := by cases src <;> rfl
@[simp] theorem State.post_linkUp (s : State) (src : Source) (i : Fin 8) (r : Reply) :
    (s.post src i r).linkUp = s.linkUp := by cases src <;> rfl
@[simp] theorem State.post_resetTaken (s : State) (src : Source) (i : Fin 8) (r : Reply) :
    (s.post src i r).resetTaken = s.resetTaken := by cases src <;> rfl
@[simp] theorem State.post_motorClaims (s : State) (src : Source) (i : Fin 8) (r : Reply) :
    (s.post src i r).motorClaims = s.motorClaims := by cases src <;> rfl
@[simp] theorem State.post_voiceClaims (s : State) (src : Source) (i : Fin 8) (r : Reply) :
    (s.post src i r).voiceClaims = s.voiceClaims := by cases src <;> rfl
@[simp] theorem State.post_motors (s : State) (src : Source) (i : Fin 8) (r : Reply) :
    (s.post src i r).motors = s.motors := by cases src <;> rfl
@[simp] theorem State.post_encoder (s : State) (src : Source) (i : Fin 8) (r : Reply) :
    (s.post src i r).encoder = s.encoder := by cases src <;> rfl
@[simp] theorem State.post_pwm (s : State) (src : Source) (i : Fin 8) (r : Reply) :
    (s.post src i r).pwm = s.pwm := by cases src <;> rfl
@[simp] theorem State.post_governor (s : State) (src : Source) (i : Fin 8) (r : Reply) :
    (s.post src i r).governor = s.governor := by cases src <;> rfl
@[simp] theorem State.post_chains (s : State) (src : Source) (i : Fin 8) (r : Reply) :
    (s.post src i r).chains = s.chains := by cases src <;> rfl
@[simp] theorem State.post_channels (s : State) (src : Source) (i : Fin 8) (r : Reply) :
    (s.post src i r).channels = s.channels := by cases src <;> rfl
@[simp] theorem State.post_copy (s : State) (src : Source) (i : Fin 8) (r : Reply) :
    (s.post src i r).copy = s.copy := by cases src <;> rfl
@[simp] theorem State.post_watches (s : State) (src : Source) (i : Fin 8) (r : Reply) :
    (s.post src i r).watches = s.watches := by cases src <;> rfl
@[simp] theorem State.post_reactions (s : State) (src : Source) (i : Fin 8) (r : Reply) :
    (s.post src i r).reactions = s.reactions := by cases src <;> rfl
@[simp] theorem State.post_store (s : State) (src : Source) (i : Fin 8) (r : Reply) :
    (s.post src i r).store = s.store := by cases src <;> rfl
@[simp] theorem State.post_windows (s : State) (src : Source) (i : Fin 8) (r : Reply) :
    (s.post src i r).windows = s.windows := by cases src <;> rfl
@[simp] theorem State.post_clips (s : State) (src : Source) (i : Fin 8) (r : Reply) :
    (s.post src i r).clips = s.clips := by cases src <;> rfl
@[simp] theorem State.post_cues (s : State) (src : Source) (i : Fin 8) (r : Reply) :
    (s.post src i r).cues = s.cues := by cases src <;> rfl
@[simp] theorem State.post_voices (s : State) (src : Source) (i : Fin 8) (r : Reply) :
    (s.post src i r).voices = s.voices := by cases src <;> rfl
@[simp] theorem State.post_master (s : State) (src : Source) (i : Fin 8) (r : Reply) :
    (s.post src i r).master = s.master := by cases src <;> rfl
@[simp] theorem State.post_aout (s : State) (src : Source) (i : Fin 8) (r : Reply) :
    (s.post src i r).aout = s.aout := by cases src <;> rfl
@[simp] theorem State.post_subs (s : State) (src : Source) (i : Fin 8) (r : Reply) :
    (s.post src i r).subs = s.subs := by cases src <;> rfl
@[simp] theorem State.post_pending (s : State) (src : Source) (i : Fin 8) (r : Reply) :
    (s.post src i r).pending = s.pending := by cases src <;> rfl
@[simp] theorem reserved_motor (s : State) (src : Source) (i : Fin 8) (kind tag : Byte) (m : MotorId) :
    (reserved s src i kind tag).motor m = s.motor m := by cases src <;> rfl
@[simp] theorem reserved_voice (s : State) (src : Source) (i : Fin 8) (kind tag : Byte) (v : VoiceId) :
    (reserved s src i kind tag).voice v = s.voice v := by cases src <;> rfl
@[simp] theorem reserved_chain (s : State) (src : Source) (i : Fin 8) (kind tag : Byte) (p : PortId) :
    (reserved s src i kind tag).chain p = s.chain p := by cases src <;> rfl
@[simp] theorem reserved_channel (s : State) (src : Source) (i : Fin 8) (kind tag : Byte) (c : ChannelId) :
    (reserved s src i kind tag).channel c = s.channel c := by cases src <;> rfl
@[simp] theorem reserved_watch (s : State) (src : Source) (i : Fin 8) (kind tag : Byte) (n : EntryId) :
    (reserved s src i kind tag).watch n = s.watch n := by cases src <;> rfl
@[simp] theorem reserved_reaction (s : State) (src : Source) (i : Fin 8) (kind tag : Byte) (n : EntryId) :
    (reserved s src i kind tag).reaction n = s.reaction n := by cases src <;> rfl
@[simp] theorem reserved_clip (s : State) (src : Source) (i : Fin 8) (kind tag : Byte) (n : ClipId) :
    (reserved s src i kind tag).clip n = s.clip n := by cases src <;> rfl
@[simp] theorem reserved_cue (s : State) (src : Source) (i : Fin 8) (kind tag : Byte) (n : CueId) :
    (reserved s src i kind tag).cue n = s.cue n := by cases src <;> rfl
@[simp] theorem reserved_sub (s : State) (src : Source) (i : Fin 8) (kind tag : Byte) (n : SubId) :
    (reserved s src i kind tag).sub n = s.sub n := by cases src <;> rfl
@[simp] theorem reserved_claim (s : State) (src : Source) (i : Fin 8) (kind tag : Byte) (r : Resource) :
    (reserved s src i kind tag).claim r = s.claim r := by cases src <;> rfl
@[simp] theorem reserved_owner (s : State) (src : Source) (i : Fin 8) (kind tag : Byte) (r : Resource) :
    (reserved s src i kind tag).owner r = s.owner r := by cases src <;> rfl
@[simp] theorem reserved_grant (s : State) (src : Source) (i : Fin 8) (kind tag : Byte) (r : Resource) :
    (reserved s src i kind tag).grant r = s.grant r := by cases src <;> rfl
@[simp] theorem reserved_module (s : State) (src : Source) (i : Fin 8) (kind tag : Byte) (p : PortId)
    (k : ModulePos) : (reserved s src i kind tag).module p k = s.module p k := by cases src <;> rfl

/-! ### A write to a bank and a reservation commute -/

theorem reserved_setMotor (s : State) (src : Source) (i : Fin 8) (kind tag : Byte) (m : MotorId) (x : Motor) :
    (reserved s src i kind tag).setMotor m x = reserved (s.setMotor m x) src i kind tag := by cases src <;> rfl
theorem reserved_setVoice (s : State) (src : Source) (i : Fin 8) (kind tag : Byte) (v : VoiceId) (x : Voice) :
    (reserved s src i kind tag).setVoice v x = reserved (s.setVoice v x) src i kind tag := by cases src <;> rfl
theorem reserved_setChain (s : State) (src : Source) (i : Fin 8) (kind tag : Byte) (p : PortId) (x : Chain) :
    (reserved s src i kind tag).setChain p x = reserved (s.setChain p x) src i kind tag := by cases src <;> rfl
theorem reserved_setChannel (s : State) (src : Source) (i : Fin 8) (kind tag : Byte) (c : ChannelId) (x : Channel) :
    (reserved s src i kind tag).setChannel c x = reserved (s.setChannel c x) src i kind tag := by cases src <;> rfl
theorem reserved_setWatch (s : State) (src : Source) (i : Fin 8) (kind tag : Byte) (n : EntryId) (x : Option Watch) :
    (reserved s src i kind tag).setWatch n x = reserved (s.setWatch n x) src i kind tag := by cases src <;> rfl
theorem reserved_setReaction (s : State) (src : Source) (i : Fin 8) (kind tag : Byte) (n : EntryId) (x : Option Reaction) :
    (reserved s src i kind tag).setReaction n x = reserved (s.setReaction n x) src i kind tag := by cases src <;> rfl
theorem reserved_setClip (s : State) (src : Source) (i : Fin 8) (kind tag : Byte) (n : ClipId) (x : Option Clip) :
    (reserved s src i kind tag).setClip n x = reserved (s.setClip n x) src i kind tag := by cases src <;> rfl
theorem reserved_setCue (s : State) (src : Source) (i : Fin 8) (kind tag : Byte) (n : CueId) (x : Option Cue) :
    (reserved s src i kind tag).setCue n x = reserved (s.setCue n x) src i kind tag := by cases src <;> rfl
theorem reserved_setSub (s : State) (src : Source) (i : Fin 8) (kind tag : Byte) (n : SubId) (x : Option Subscription) :
    (reserved s src i kind tag).setSub n x = reserved (s.setSub n x) src i kind tag := by cases src <;> rfl
theorem reserved_setClaim (s : State) (src : Source) (i : Fin 8) (kind tag : Byte) (r : Resource) (x : Claim) :
    (reserved s src i kind tag).setClaim r x = reserved (s.setClaim r x) src i kind tag := by cases src <;> cases r <;> rfl
theorem reserved_askSupply (s : State) (src : Source) (i : Fin 8) (kind tag : Byte) (r : Resource) (a : Nat) :
    (reserved s src i kind tag).askSupply r a = reserved (s.askSupply r a) src i kind tag := by cases src <;> rfl
theorem reserved_releaseSupply (s : State) (src : Source) (i : Fin 8) (kind tag : Byte) (r : Resource) :
    (reserved s src i kind tag).releaseSupply r = reserved (s.releaseSupply r) src i kind tag := by cases src <;> rfl
theorem reserved_restartLease (s : State) (src : Source) (i : Fin 8) (kind tag : Byte) (r : Resource) :
    (reserved s src i kind tag).restartLease r = reserved (s.restartLease r) src i kind tag := by
  cases src <;> cases r <;> rfl

/-- The slot reserved for a request. -/
@[simp] theorem slots_reserved (s : State) (src : Source) (i : Fin 8) (kind tag : Byte) :
    ((reserved s src i kind tag).link src).slots[i] = some ⟨kind, tag⟩ := by
  cases src <;> simp [reserved, State.setLink, State.link]

/-- R179: a reply in a reserved slot becomes waiting, with the kind of its request plus 80h and its TAG. -/
theorem State.post_reserved {s : State} {src : Source} {i : Fin 8} {kind tag : Byte} (r : Reply)
    (h : (s.link src).slots[i] = some ⟨kind, tag⟩) :
    s.post src i r =
      s.setLink src { s.link src with waiting := (s.link src).waiting ++ [⟨i, kind + 0x80#8, tag, r⟩] } := by
  unfold State.post LinkUnit.post; rw [h]

/-- R178, R179: a request taken and answered, with nothing else of the links changed. -/
theorem post_reserved_eq_answered (s : State) (src : Source) (i : Fin 8) (kind tag : Byte) (r : Reply) :
    (reserved s src i kind tag).post src i r = answered s src i kind tag r := by
  rw [State.post_reserved r (slots_reserved s src i kind tag)]
  cases src <;> rfl

/-- R178: an accepted request whose block answers later, or at once. -/
theorem serveLater_accepted {s : State} {src : Source} {i : Fin 8} (h : Accepts s src i) (k : RequestKind)
    (tag : Byte) (act : Fin 8 → State → State × Option Reply)
    (permitted : RequestKind.programOnly k = true → src = .program) :
    serveLater k src tag act s =
      match act i (reserved s src i (RequestKind.code k) tag) with
      | (t, some r) => t.post src i r
      | (t, none) => t := by
  unfold serveLater
  rw [if_pos h.1, h.2]
  have np : ¬ ((RequestKind.programOnly k && decide (src = .tablet)) = true) := by
    intro e
    simp only [Bool.and_eq_true, decide_eq_true_eq] at e
    have := permitted e.1
    rw [e.2] at this
    cases this
  simp only [if_neg np]
  rfl

/-- R178, R179: an accepted request that its block answers when it is taken. -/
theorem serve_accepted {s : State} {src : Source} {i : Fin 8} (h : Accepts s src i) (k : RequestKind) (tag : Byte)
    (act : State → State × Reply) (permitted : RequestKind.programOnly k = true → src = .program) :
    serve k src tag act s =
      (act (reserved s src i (RequestKind.code k) tag)).1.post src i
        (act (reserved s src i (RequestKind.code k) tag)).2 := by
  unfold serve
  rw [serveLater_accepted h k tag _ permitted]

/-- R178, R179: an accepted request whose block changes what does not touch the links: `f` the change, `r` the
reply. -/
theorem serve_answered {s : State} {src : Source} {i : Fin 8} (h : Accepts s src i) (k : RequestKind) (tag : Byte)
    {act : State → State × Reply} (permitted : RequestKind.programOnly k = true → src = .program) {t : State}
    {r : Reply} (e : act (reserved s src i (RequestKind.code k) tag) = (reserved t src i (RequestKind.code k) tag, r)) :
    serve k src tag act s = answered t src i (RequestKind.code k) tag r := by
  rw [serve_accepted h k tag act permitted, e]
  exact post_reserved_eq_answered t src i _ tag r

/-- R178: a request on a link that takes no frames, or with no free slot, is discarded. -/
theorem serveLater_discarded {s : State} {src : Source}
    (h : s.takesFrames src = false ∨ (s.link src).freeSlot = none) (k : RequestKind) (tag : Byte)
    (act : Fin 8 → State → State × Option Reply) : serveLater k src tag act s = s := by
  unfold serveLater
  rcases h with h | h
  · rw [if_neg (by rw [h]; decide)]
  · split
    · rw [h]
    · rfl

/-- R159: the claim table does not show the links. -/
@[simp] theorem claimTable_setLink (s : State) (src : Source) (l : LinkUnit) :
    claimTable (s.setLink src l) = claimTable s := by
  simp [claimTable]

/-- R159: a refusal of the link unit does not show the links. -/
@[simp] theorem linkRefusal_setLink (k : RequestKind) (st : Status) (s : State) (src : Source) (l : LinkUnit) :
    linkRefusal k st (s.setLink src l) = linkRefusal k st s := by
  simp [linkRefusal]

/-- R167, Table 9-3: a PROGRAM-only request from the tablet is answered NOT_PERMITTED. -/
theorem serveLater_notPermitted {s : State} {i : Fin 8} (h : Accepts s .tablet i) {k : RequestKind}
    (only : RequestKind.programOnly k = true) (tag : Byte) (act : Fin 8 → State → State × Option Reply) :
    serveLater k .tablet tag act s = answered s .tablet i (RequestKind.code k) tag (linkRefusal k .notPermitted s) := by
  unfold serveLater
  rw [if_pos h.1, h.2]
  simp only [only, Bool.true_and, decide_true, if_true, linkRefusal_setLink]
  exact post_reserved_eq_answered s .tablet i _ tag _

/-- R178: a link has no free slot exactly when all eight are reserved. -/
theorem LinkUnit.freeSlot_eq_none {l : LinkUnit} : l.freeSlot = none ↔ ∀ i : Fin 8, l.slots[i] ≠ none := by
  unfold LinkUnit.freeSlot
  rw [List.find?_eq_none]
  constructor
  · intro h i e
    have := h i (by fin_cases i <;> simp [allSlots])
    rw [e] at this
    exact this rfl
  · intro h i _ e
    exact h i (by simpa using e)

/-! ### A paused frame (R176) -/

/-- R176: a frame is paused while READY-in is low and a byte of it has not begun. -/
theorem LinkUnit.paused_iff {l : LinkUnit} {f : TxFrame} (h : l.tx = some f) :
    l.paused = true ↔ l.readyIn = false ∧ l.begun < (frameBytes f).length := by
  unfold LinkUnit.paused
  simp [h]

theorem LinkUnit.paused_of_idle {l : LinkUnit} (h : l.tx = none) : l.paused = false := by
  unfold LinkUnit.paused
  simp [h]

theorem LinkUnit.paused_of_ready {l : LinkUnit} (h : l.readyIn = true) : l.paused = false := by
  unfold LinkUnit.paused
  simp [h]

/-- R176: the fall of READY-in counts no fewer bytes than had begun, and no more than the frame has. -/
theorem LinkUnit.begun_pause (link : Source) (f : TxFrame) (l : LinkUnit) :
    min (frameBytes f).length l.begun ≤ (LinkUnit.pause link f l).begun ∧
      (LinkUnit.pause link f l).begun ≤ (frameBytes f).length := by
  unfold LinkUnit.pause
  dsimp only
  omega

end Sys2Proof.Machine
end

