-- ==== Sys2Proof/Laws/Supply.lean ====
section
/-! SUPPORT. The supply governor: an ask, a release and a scale-down keep the sum of the grants within the budget (R60,
R63, R66). -/

namespace Sys2Proof.Machine

@[simp] theorem Governor.ask_budget (g : Governor) (r : Resource) (a : Nat) : (g.ask r a).budget = g.budget :=
  Governor.setSupply_budget g r _

@[simp] theorem Governor.release_budget (g : Governor) (r : Resource) : (g.release r).budget = g.budget :=
  Governor.setSupply_budget g r _

/-- One resource's supply replaced: the sum changes by its grant. -/
theorem Governor.used_setSupply (g : Governor) (r : Resource) (x : Supply) :
    (g.setSupply r x).used + (g.supply r).grant = g.used + x.grant := by
  cases r with
  | motor m =>
    fin_cases m <;> simp [Governor.used, Governor.setSupply, Governor.supply] <;> omega
  | voice v =>
    fin_cases v <;> simp [Governor.used, Governor.setSupply, Governor.supply] <;> omega

/-- A resource's grant is part of the sum. -/
theorem Governor.grant_le_used (g : Governor) (r : Resource) : (g.supply r).grant ≤ g.used := by
  cases r with
  | motor m => fin_cases m <;> simp [Governor.used, Governor.supply] <;> omega
  | voice v => fin_cases v <;> simp [Governor.used, Governor.supply] <;> omega

/-- R60: an ask keeps the sum of the grants within the budget. -/
theorem Governor.used_ask {g : Governor} (h : g.used ≤ g.budget) (r : Resource) (a : Nat) :
    (g.ask r a).used ≤ g.budget := by
  have h1 := Governor.used_setSupply g r ⟨g.offer r a, a⟩
  have h2 := Governor.grant_le_used g r
  simp only [Governor.ask, Governor.offer, Governor.free] at h1 ⊢
  omega

/-- R63: a release keeps the sum of the grants within the budget. -/
theorem Governor.used_release {g : Governor} (h : g.used ≤ g.budget) (r : Resource) :
    (g.release r).used ≤ g.budget := by
  have h1 := Governor.used_setSupply g r ⟨0, 0⟩
  simp only [Governor.release] at h1 ⊢
  omega

/-- R66: what a scale-down leaves for each resource. -/
theorem Governor.supply_scaled (g : Governor) (b : Nat) (r : Resource) :
    (g.scaled b).supply r = scaleGrant b g.used (g.supply r) := by
  cases r with
  | motor m => fin_cases m <;> rfl
  | voice v => fin_cases v <;> rfl

/-- R66: the scaled grants together are within the new budget. -/
theorem Governor.used_scaled (g : Governor) (b : Nat) : (g.scaled b).used ≤ b := by
  have add : ∀ x y : Nat, x * b / g.used + y * b / g.used ≤ (x + y) * b / g.used := by
    intro x y
    rw [Nat.add_mul]
    exact Nat.div_add_div_le_add_div
  have total : g.used * b / g.used ≤ b := by
    rcases Nat.eq_zero_or_pos g.used with h | h
    · rw [h]; simp
    · rw [Nat.mul_comm, Nat.mul_div_cancel _ h]
  have sum : (g.scaled b).used =
      g.motors[0].grant * b / g.used + g.motors[1].grant * b / g.used + g.motors[2].grant * b / g.used +
        g.motors[3].grant * b / g.used + g.motors[4].grant * b / g.used + g.motors[5].grant * b / g.used +
        (g.voices[0].grant * b / g.used + g.voices[1].grant * b / g.used + g.voices[2].grant * b / g.used +
          g.voices[3].grant * b / g.used) := rfl
  rw [sum]
  refine Nat.le_trans ?_ total
  conv_rhs => rw [show g.used = _ from rfl]
  refine Nat.le_trans (Nat.add_le_add ?_ ?_) (add _ _)
  · refine Nat.le_trans (Nat.add_le_add_right ?_ _) (add _ _)
    refine Nat.le_trans (Nat.add_le_add_right ?_ _) (add _ _)
    refine Nat.le_trans (Nat.add_le_add_right ?_ _) (add _ _)
    refine Nat.le_trans (Nat.add_le_add_right ?_ _) (add _ _)
    exact add _ _
  · refine Nat.le_trans (Nat.add_le_add_right ?_ _) (add _ _)
    refine Nat.le_trans (Nat.add_le_add_right ?_ _) (add _ _)
    exact add _ _

end Sys2Proof.Machine
end

