-- ==== Sys2Proof/Laws/Quiet.lean ====
section
/-! SUPPORT. What the work of motors, voices and reactions can change: every operation of Chapters 1 to 3, 7 and 8 that an
event sets off is `Quiet`. -/

namespace Sys2Proof.Safety

open Sys2Proof.Machine

/-! ### Building and chaining -/

theorem NoticesOnly.refl (l : LinkUnit) : NoticesOnly l l := by cases l; rfl

theorem NoticesOnly.trans {a b c : LinkUnit} (h : NoticesOnly a b) (k : NoticesOnly b c) : NoticesOnly a c := by
  unfold NoticesOnly at *
  rw [k, h]

theorem QueuesOnly.refl (c : Chain) : QueuesOnly c c := by cases c; rfl

theorem QueuesOnly.trans {a b c : Chain} (h : QueuesOnly a b) (k : QueuesOnly b c) : QueuesOnly a c := by
  unfold QueuesOnly at *
  rw [k, h]

/-- Work that changes motors, voices, grants, use counts, reaction counts and notices alone is quiet. -/
theorem Quiet.of {s t : State}
    (same : t =
      { s with
        program := t.program, tablet := t.tablet, motors := t.motors, governor := t.governor,
        reactions := t.reactions, clips := t.clips, voices := t.voices })
    (links : ∀ src, NoticesOnly (s.link src) (t.link src))
    (notices : ∀ src, QueueBoundKept (s.link src) (t.link src))
    (budget : t.governor.budget = s.governor.budget)
    (grants : s.governor.used ≤ s.governor.budget → t.governor.used ≤ t.governor.budget)
    (reactions : ∀ n, (t.reaction n).map storedReaction = (s.reaction n).map storedReaction)
    (clips : ∀ n, (t.clip n).map storedClip = (s.clip n).map storedClip) : Quiet s t where
  time := by rw [same]
  linkUp := by rw [same]
  resetTaken := by rw [same]
  motorClaims := by rw [same]
  voiceClaims := by rw [same]
  encoder := by rw [same]
  pwm := by rw [same]
  aout := by rw [same]
  store := by rw [same]
  windows := by rw [same]
  cues := by rw [same]
  master := by rw [same]
  subs := by rw [same]
  pending := by rw [same]
  budget := budget
  grants := grants
  reactions := reactions
  clips := clips
  watchTable := by intro n; rw [same]; rfl
  slots := by intro src; rw [links src]
  rx := by intro src; rw [links src]
  tx := by intro src; rw [links src]
  readyIn := by intro src; rw [links src]
  begun := by intro src; rw [links src]
  draws := by intro src; rw [links src]
  waiting := by intro src; rw [links src]
  notices := notices
  chains := by
    intro p
    have : t.chain p = s.chain p := by rw [same]; rfl
    rw [this]; exact QueuesOnly.refl _
  links := links
  allChains := by rw [same]
  channels := by rw [same]
  copy := by rw [same]
  watches := by rw [same]

theorem Quiet.refl (s : State) : Quiet s s :=
  Quiet.of rfl (fun _ => NoticesOnly.refl _) (fun _ h => h) rfl (fun h => h) (fun _ => rfl)
    (fun _ => rfl)

theorem Steady.trans {a b c : State} (h : Steady a b) (k : Steady b c) : Steady a c where
  time := k.time.trans h.time
  linkUp := k.linkUp.trans h.linkUp
  resetTaken := k.resetTaken.trans h.resetTaken
  motorClaims := k.motorClaims.trans h.motorClaims
  voiceClaims := k.voiceClaims.trans h.voiceClaims
  encoder := k.encoder.trans h.encoder
  pwm := k.pwm.trans h.pwm
  aout := k.aout.trans h.aout
  store := k.store.trans h.store
  windows := k.windows.trans h.windows
  cues := k.cues.trans h.cues
  master := k.master.trans h.master
  subs := k.subs.trans h.subs
  pending := k.pending.trans h.pending
  budget := k.budget.trans h.budget
  grants := fun e => k.grants (h.grants e)
  reactions := fun n => (k.reactions n).trans (h.reactions n)
  clips := fun n => (k.clips n).trans (h.clips n)
  watchTable := fun n => (k.watchTable n).trans (h.watchTable n)
  slots := fun src => (k.slots src).trans (h.slots src)
  rx := fun src => (k.rx src).trans (h.rx src)
  tx := fun src => (k.tx src).trans (h.tx src)
  readyIn := fun src => (k.readyIn src).trans (h.readyIn src)
  begun := fun src => (k.begun src).trans (h.begun src)
  draws := fun src => (k.draws src).trans (h.draws src)
  waiting := fun src => (h.waiting src).trans (k.waiting src)
  notices := fun src e => k.notices src (h.notices src e)

theorem Calm.trans {a b c : State} (h : Calm a b) (k : Calm b c) : Calm a c where
  toSteady := h.toSteady.trans k.toSteady
  chains := fun p => QueuesOnly.trans (h.chains p) (k.chains p)
  links := fun src => NoticesOnly.trans (h.links src) (k.links src)

theorem Local.trans {a b c : State} (h : Local a b) (k : Local b c) : Local a c where
  toCalm := h.toCalm.trans k.toCalm
  allChains := k.allChains.trans h.allChains
  channels := k.channels.trans h.channels
  copy := k.copy.trans h.copy

theorem Quiet.trans {a b c : State} (h : Quiet a b) (k : Quiet b c) : Quiet a c where
  toLocal := h.toLocal.trans k.toLocal
  watches := k.watches.trans h.watches

end Sys2Proof.Safety

namespace Sys2Proof.Machine

open Sys2Proof.Safety

/-! ### Single writes -/

theorem quiet_setMotor (s : State) (m : MotorId) (x : Motor) : Quiet s (s.setMotor m x) :=
  Quiet.of rfl (fun src => by cases src <;> exact NoticesOnly.refl _) (fun src => by cases src <;> exact fun h => h) rfl
    (fun h => h) (fun _ => rfl) (fun _ => rfl)

theorem quiet_modMotor (s : State) (m : MotorId) (f : Motor → Motor) : Quiet s (s.modMotor m f) := quiet_setMotor s m _

theorem quiet_setVoice (s : State) (v : VoiceId) (x : Voice) : Quiet s (s.setVoice v x) :=
  Quiet.of rfl (fun src => by cases src <;> exact NoticesOnly.refl _) (fun src => by cases src <;> exact fun h => h) rfl
    (fun h => h) (fun _ => rfl) (fun _ => rfl)

theorem quiet_modVoice (s : State) (v : VoiceId) (f : Voice → Voice) : Quiet s (s.modVoice v f) := quiet_setVoice s v _

theorem quiet_askSupply (s : State) (r : Resource) (a : Nat) : Quiet s (s.askSupply r a) :=
  Quiet.of rfl (fun src => by cases src <;> exact NoticesOnly.refl _) (fun src => by cases src <;> exact fun h => h)
    (Governor.ask_budget _ r a)
    (fun h => by
      show (s.governor.ask r a).used ≤ (s.governor.ask r a).budget
      rw [Governor.ask_budget]; exact Governor.used_ask h r a)
    (fun _ => rfl) (fun _ => rfl)

theorem quiet_releaseSupply (s : State) (r : Resource) : Quiet s (s.releaseSupply r) :=
  Quiet.of rfl (fun src => by cases src <;> exact NoticesOnly.refl _) (fun src => by cases src <;> exact fun h => h)
    (Governor.release_budget _ r)
    (fun h => by
      show (s.governor.release r).used ≤ (s.governor.release r).budget
      rw [Governor.release_budget]; exact Governor.used_release h r)
    (fun _ => rfl) (fun _ => rfl)

theorem quiet_setReaction {s : State} {n : EntryId} {x : Option Reaction}
    (h : x.map storedReaction = (s.reaction n).map storedReaction) : Quiet s (s.setReaction n x) :=
  Quiet.of rfl (fun src => by cases src <;> exact NoticesOnly.refl _) (fun src => by cases src <;> exact fun h => h) rfl
    (fun h => h)
    (fun k => by
      by_cases e : n = k
      · subst e; rw [State.reaction_setReaction_self]; exact h
      · rw [State.reaction_setReaction_ne _ _ e])
    (fun _ => rfl)

theorem quiet_setClip {s : State} {n : ClipId} {x : Option Clip}
    (h : x.map storedClip = (s.clip n).map storedClip) : Quiet s (s.setClip n x) :=
  Quiet.of rfl (fun src => by cases src <;> exact NoticesOnly.refl _) (fun src => by cases src <;> exact fun h => h) rfl
    (fun h => h) (fun _ => rfl)
    (fun k => by
      by_cases e : n = k
      · subst e; rw [State.clip_setClip_self]; exact h
      · rw [State.clip_setClip_ne _ _ e])

theorem quiet_place (s : State) (a : Source) (b : NoticeBody) : Quiet s (s.place a b) := by
  refine Quiet.of ?_ ?_ ?_ ?_ ?_ ?_ ?_
  · unfold State.place; split <;> [rfl; cases a <;> rfl]
  · intro src; rw [State.link_place]; split
    · exact LinkUnit.place_noticesOnly _ _
    · exact NoticesOnly.refl _
  · intro src; rw [State.link_place]; split
    · exact LinkUnit.place_bound _ _
    · exact fun h => h
  · rw [State.place_governor]
  · rw [State.place_governor]; exact fun h => h
  · intro n; unfold State.reaction; rw [State.place_reactions]
  · intro n; unfold State.clip; rw [State.place_clips]

theorem quiet_placeBoth (s : State) (b : NoticeBody) : Quiet s (s.placeBoth b) :=
  (quiet_place s .program b).trans (quiet_place _ .tablet b)

end Sys2Proof.Machine
end

