-- ==== Sys2Proof/Laws/QuietMotion.lean ====
section
/-! SUPPORT. The motion controller's work is `Quiet`: stop actions, segment starts and ends, the stages of a tick, trips,
stalls, and segments handed in (Chapters 1 to 3). -/

namespace Sys2Proof.Machine

open Sys2Proof.Safety

theorem quiet_enterRest (m : MotorId) (st : MotorState) (s : State) : Quiet s (enterRest m st s) := by
  unfold enterRest; split
  · exact Quiet.refl s
  · exact (quiet_modMotor s m _).trans (quiet_releaseSupply _ _)

theorem quiet_applyStop (m : MotorId) (a : StopAction) (s : State) : Quiet s (applyStop m a s) := by
  cases a
  · exact quiet_enterRest m .idle s
  · exact quiet_enterRest m .braked s
  · exact quiet_modMotor s m _

theorem quiet_endNotice (m : MotorId) (a : Active) (r : EndReason) (b : Bool) (p : Word) (n : Nat) (s : State) :
    Quiet s (endNotice m a r b p n s) := quiet_place s _ _

theorem quiet_stopAction (m : MotorId) (r : EndReason) (a : StopAction) (s : State) :
    Quiet s (stopAction m r a s).1 := by
  have h := (quiet_modMotor s m Motor.cleared).trans (quiet_applyStop m a _)
  unfold stopAction
  dsimp only
  split
  · exact Quiet.refl s
  · cases (s.motor m).active with
    | none => exact h
    | some x => exact h.trans (quiet_endNotice m x r false _ _ _)

theorem quiet_applyEndAction (m : MotorId) (e : EndAction) (ref : HoldRef) (s : State) :
    Quiet s (applyEndAction m e ref s) := by
  cases e
  · exact quiet_enterRest m .idle s
  · exact quiet_enterRest m .braked s
  · unfold applyEndAction; exact quiet_modMotor s m _
  · unfold applyEndAction; exact quiet_modMotor s m _

theorem quiet_endByAction (m : MotorId) (r : EndReason) (ref : HoldRef) (p : Word) (s : State) :
    Quiet s (endByAction m r ref p s).1 := by
  unfold endByAction
  cases (s.motor m).active with
  | none => exact Quiet.refl s
  | some a =>
    exact ((quiet_modMotor s m _).trans (quiet_applyEndAction m _ ref _)).trans (quiet_endNotice m a r false _ _ _)

theorem quiet_endByForce (m : MotorId) (r : EndReason) (st : MotorState) (p : Word) (s : State) :
    Quiet s (endByForce m r st p s).1 := by
  unfold endByForce
  cases (s.motor m).active with
  | none => exact Quiet.refl s
  | some a =>
    exact ((quiet_modMotor s m _).trans (quiet_enterRest m st _)).trans (quiet_endNotice m a r false _ _ _)

theorem quiet_endIfGone (m : MotorId) (s : State) : Quiet s (endIfGone m s).1 := by
  unfold endIfGone
  split
  · exact Quiet.refl s
  · split
    · exact quiet_endByForce m _ _ _ s
    · exact Quiet.refl s

theorem quiet_startStage (m : MotorId) (s : State) : Quiet s (startStage m s).1 := by
  unfold startStage
  dsimp only
  split
  · exact (quiet_modMotor s m _).trans (quiet_endIfGone m _)
  · exact Quiet.refl s

theorem quiet_handover (m : MotorId) (a : Active) (s : State) : Quiet s (handover m a s).1 := by
  unfold handover
  dsimp only
  split
  · exact quiet_endByAction m _ _ _ s
  · exact ((quiet_modMotor s m _).trans (quiet_endNotice m a _ _ _ _ _)).trans (quiet_endIfGone m _)

theorem quiet_arrivalTest (m : MotorId) (a : Active) (s : State) : Quiet s (arrivalTest m a s).1 := by
  unfold arrivalTest
  dsimp only
  split
  · split
    · exact (quiet_modMotor s m _).trans (quiet_endByAction m _ _ _ _)
    · exact (quiet_modMotor s m _).trans (quiet_handover m a _)
    all_goals exact Quiet.refl s
  · exact Quiet.refl s

theorem quiet_stoppingTest (m : MotorId) (s : State) : Quiet s (stoppingTest m s).1 := by
  unfold stoppingTest
  dsimp only
  split
  · exact Quiet.refl s
  · split
    · exact quiet_endByAction m _ _ _ s
    · exact Quiet.refl s

theorem quiet_durationExpired (m : MotorId) (s : State) : Quiet s (durationExpired m s).1 := by
  unfold durationExpired
  dsimp only
  split
  · exact Quiet.refl s
  · split
    · split
      · exact quiet_handover m _ s
      · exact (quiet_modMotor s m _).trans (quiet_stoppingTest m _)
    · exact quiet_endByAction m _ _ _ s

theorem quiet_durationTest (m : MotorId) (a : Active) (s : State) : Quiet s (durationTest m a s).1 := by
  unfold durationTest
  dsimp only
  split
  · split
    · exact (quiet_modMotor s m _).trans (quiet_durationExpired m _)
    · dsimp only; exact quiet_modMotor s m _
  · exact quiet_stoppingTest m s

theorem quiet_profileStage (m : MotorId) (s : State) : Quiet s (profileStage m s).1 := by
  unfold profileStage
  dsimp only
  split
  · split
    · exact quiet_setMotor s m _
    · split
      · exact (quiet_setMotor s m _).trans (quiet_arrivalTest m _ _)
      · exact (quiet_setMotor s m _).trans (quiet_durationTest m _ _)
  · exact Quiet.refl s

theorem quiet_faultNotice (m : MotorId) (c : MotorFaultCause) (s : State) : Quiet s (faultNotice m c s) :=
  quiet_place s _ _

theorem quiet_takeTrip (m : MotorId) (s : State) : Quiet s (takeTrip m s).1 := by
  unfold takeTrip
  exact (((quiet_endByForce m _ _ _ s).trans (quiet_modMotor _ m _)).trans (quiet_enterRest m _ _)).trans
    (quiet_faultNotice m _ _)

theorem quiet_tripStage (m : MotorId) (s : State) : Quiet s (tripStage m s).1 := by
  unfold tripStage
  dsimp only
  generalize (if (s.motor m).config.tripCurrent < (s.motor m).iAvg then (s.motor m).overCount + 1 else 0) = count
  by_cases h : (s.motor m).driving = true
  · rw [if_pos h]
    by_cases k : 2 ≤ count
    · rw [if_pos k]; exact (quiet_modMotor s m _).trans (quiet_takeTrip m _)
    · rw [if_neg k]; dsimp only; exact quiet_modMotor s m _
  · rw [if_neg h]; exact Quiet.refl s

theorem quiet_lawStage (m : MotorId) (s : State) : Quiet s (lawStage m s) := by
  unfold lawStage; split
  · exact quiet_modMotor s m _
  · exact Quiet.refl s

theorem quiet_grantStage (m : MotorId) (s : State) : Quiet s (grantStage m s) := by
  unfold grantStage
  dsimp only
  split
  · exact (quiet_askSupply s _ _).trans (quiet_setMotor _ m _)
  · exact Quiet.refl s

theorem quiet_takeStall (m : MotorId) (s : State) : Quiet s (takeStall m s).1 := by
  unfold takeStall
  dsimp only
  have h := quiet_modMotor s m fun x => { x with stallMs := 0 }
  split
  · split
    · exact h.trans (quiet_endByAction m _ _ _ _)
    · exact h.trans (quiet_endByForce m _ _ _ _)
  · exact (h.trans (quiet_enterRest m _ _)).trans (quiet_faultNotice m _ _)
  · exact h

theorem quiet_stallStage (m : MotorId) (s : State) : Quiet s (stallStage m s).1 := by
  unfold stallStage
  dsimp only
  split
  · split
    · split
      · exact (quiet_modMotor s m _).trans (quiet_takeStall m _)
      · dsimp only; exact quiet_modMotor s m _
    · dsimp only; exact quiet_modMotor s m _
  · exact Quiet.refl s

/-- R5: a control tick's stages are quiet; its events are taken after them. -/
theorem quiet_controlTick (m : MotorId) (isense : Int) (s : State) : Quiet s (controlTick m isense s).1 := by
  unfold controlTick
  have h2 := quiet_modMotor s m fun mo => mo.adopt.measure isense
  generalize (s.modMotor m fun mo => mo.adopt.measure isense) = s2 at h2 ⊢
  dsimp only
  have h3 := h2.trans (quiet_tripStage m s2)
  generalize tripStage m s2 = x3 at h3 ⊢
  obtain ⟨s3, e3⟩ := x3
  dsimp only at h3 ⊢
  have h4 := h3.trans (quiet_startStage m s3)
  generalize startStage m s3 = x4 at h4 ⊢
  obtain ⟨s4, e4⟩ := x4
  dsimp only at h4 ⊢
  have h5 := h4.trans (quiet_profileStage m s4)
  generalize profileStage m s4 = x5 at h5 ⊢
  obtain ⟨s5, e5⟩ := x5
  dsimp only at h5 ⊢
  exact (h5.trans ((quiet_lawStage m s5).trans (quiet_grantStage m _))).trans (quiet_stallStage m _)

theorem quiet_replaceSegment (m : MotorId) (seg : Segment) (s : State) : Quiet s (replaceSegment m seg s).1 := by
  unfold replaceSegment
  dsimp only
  split
  · exact (quiet_modMotor s m _).trans (quiet_endNotice m _ _ _ _ _ _)
  · dsimp only; exact quiet_modMotor s m _

theorem quiet_handIn {m : MotorId} {seg : Segment} {replace : Bool} {s : State} {x : State × List Event}
    (h : handIn m seg replace s = .ok x) : Quiet s x.1 := by
  unfold handIn at h
  split at h
  · cases h
  · split at h
    · cases h; exact quiet_replaceSegment m seg s
    · cases h; exact quiet_modMotor s m _

theorem quiet_sampleAtMotor (ch : ChannelId) (m : MotorId) (s : State) : Quiet s (sampleAtMotor ch m s).1 := by
  unfold sampleAtMotor
  split
  · exact Quiet.refl s
  · split
    · exact quiet_endByAction m _ _ _ s
    · exact Quiet.refl s

theorem quiet_lossAtMotor (ch : ChannelId) (m : MotorId) (s : State) : Quiet s (lossAtMotor ch m s).1 := by
  unfold lossAtMotor
  split
  · exact Quiet.refl s
  · split
    · exact quiet_endByForce m _ _ _ s
    · exact Quiet.refl s

end Sys2Proof.Machine
end

