-- ==== Sys2Proof/Laws/QuietVoices.lean ====
section
/-! SUPPORT. The work of voices and reactions is `Quiet` (Chapters 7 and 8): voice ends, fetches, fades, one voice's part of
an output sample, and an event taken by the reactions. -/

namespace Sys2Proof.Machine

open Sys2Proof.Safety

/-! ### Voices -/

theorem quiet_changeUse (c : ClipId) (f : Nat → Nat) (s : State) : Quiet s (changeUse c f s) := by
  unfold changeUse
  split
  · rename_i x h; exact quiet_setClip (by rw [h]; rfl)
  · exact Quiet.refl s

theorem quiet_releaseClip (v : VoiceId) (s : State) : Quiet s (releaseClip v s) := by
  unfold releaseClip
  split
  · exact quiet_changeUse _ _ s
  · exact Quiet.refl s

theorem quiet_retarget (v : VoiceId) (s : State) : Quiet s (retarget v s) := by
  unfold retarget
  dsimp only
  split
  · exact Quiet.refl s
  · exact (quiet_askSupply s _ _).trans (quiet_setVoice _ v _)

theorem quiet_closeVoice (v : VoiceId) (r : VoiceEndReason) (l : Source) (s : State) :
    Quiet s (closeVoice v r l s).1 :=
  ((quiet_releaseClip v s).trans (quiet_modVoice _ v _)).trans (quiet_releaseSupply _ _)

theorem quiet_endVoice (v : VoiceId) (r : VoiceEndReason) (s : State) : Quiet s (endVoice v r s).1 :=
  quiet_closeVoice v r _ s

theorem quiet_endFade (v : VoiceId) (s : State) : Quiet s (endFade v s).1 := quiet_closeVoice v _ _ s

theorem quiet_takeCue (v : VoiceId) (n : CueId) (c : CueCopy) (p : Nat) (r : Repeats) (s : State) :
    Quiet s (takeCue v n c p r s) := by
  unfold takeCue
  dsimp only
  split
  · exact (quiet_modVoice s v _).trans (quiet_retarget v _)
  · exact quiet_modVoice s v _

theorem quiet_endAtFetch (v : VoiceId) (r : VoiceEndReason) (s : State) : Quiet s (endAtFetch v r s).1 := by
  unfold endAtFetch
  dsimp only
  split
  · exact quiet_endFade v s
  · exact quiet_endVoice v r s

theorem quiet_fetchCue (v : VoiceId) (n : NextCue) (s : State) : Quiet s (fetchCue v n s).1 := by
  unfold fetchCue
  have h := (quiet_releaseClip v s).trans
    (quiet_modVoice (releaseClip v s) v fun vo => { vo with cue := none, cueEntry := none })
  dsimp only
  generalize ((releaseClip v s).modVoice v fun vo => { vo with cue := none, cueEntry := none }) = s0 at h ⊢
  split
  · exact h.trans (quiet_endAtFetch v _ _)
  · split
    · exact h.trans (quiet_endAtFetch v _ _)
    · split
      · split
        · exact h.trans (quiet_endAtFetch v _ _)
        · split
          · exact h.trans (quiet_endAtFetch v _ _)
          · exact h.trans ((quiet_changeUse _ _ _).trans (quiet_takeCue v _ _ _ _ _))
      · exact h.trans (quiet_takeCue v _ _ _ _ _)
      · exact h.trans (quiet_takeCue v _ _ _ _ _)

/-- One voice's part of an output sample event (R151, R146). -/
theorem quiet_stepVoice (v : VoiceId) (s : State) : Quiet s (stepVoice v s).state := by
  unfold stepVoice
  dsimp only
  split
  · exact Quiet.refl s
  · split
    · exact quiet_setVoice s v _
    · split
      · exact (quiet_setVoice s v _).trans (quiet_fetchCue v _ _)
      · exact quiet_setVoice s v _

theorem quiet_closeStep (v : VoiceId) (x : VoiceStep) (s : State) : Quiet s (closeStep v x s).1 := by
  unfold closeStep
  split
  · exact quiet_endFade v s
  · exact Quiet.refl s

section Emit

variable {emit : Event → State → State} (he : ∀ e s, Quiet s (emit e s))
include he

theorem quiet_reportVoice (r : VoiceReport) (s : State) : Quiet s (reportVoice emit r s) :=
  (quiet_place s _ _).trans (he _ _)

theorem quiet_reportMaybe (r : Option VoiceReport) (s : State) : Quiet s (reportMaybe emit r s) := by
  cases r
  · exact Quiet.refl s
  · exact quiet_reportVoice he _ s

theorem quiet_fadeStop (v : VoiceId) (r : VoiceEndReason) (s : State) : Quiet s (fadeStop emit v r s) := by
  unfold fadeStop
  dsimp only
  split
  · split
    · exact (quiet_endVoice v r s).trans (quiet_reportVoice he _ _)
    · exact quiet_setVoice s v _
  · exact Quiet.refl s

theorem quiet_stopNow (v : VoiceId) (s : State) : Quiet s (stopNow emit v s) := by
  unfold stopNow
  split
  · exact Quiet.refl s
  · exact (quiet_endVoice v .stopped s).trans (quiet_reportVoice he _ _)

theorem quiet_stopVoice (v : VoiceId) (fade : Bool) (s : State) : Quiet s (stopVoice emit v fade s) := by
  unfold stopVoice
  split
  · exact quiet_fadeStop he v _ s
  · exact quiet_stopNow he v s

theorem quiet_playVoice (v : VoiceId) (n : CueId) (s : State) : Quiet s (playVoice emit v n s) := by
  unfold playVoice
  have h : Quiet s (if (s.voice v).state = .idle then (s, none) else
      let (t, r) := endVoice v .replaced s
      (t, some r) : State × Option VoiceReport).1 := by
    split
    · exact Quiet.refl s
    · exact quiet_endVoice v .replaced s
  generalize (if (s.voice v).state = .idle then (s, none) else
      let (t, r) := endVoice v .replaced s
      (t, some r) : State × Option VoiceReport) = x at h ⊢
  obtain ⟨s1, replaced⟩ := x
  dsimp only at h ⊢
  have h2 := (h.trans (quiet_modVoice s1 v fun vo => { vo with state := .playing, gain := 0, phase := 0 })).trans
    (quiet_fetchCue v (.entry n) _)
  generalize fetchCue v (.entry n) (s1.modVoice v fun vo => { vo with state := .playing, gain := 0, phase := 0 }) = y
    at h2 ⊢
  obtain ⟨s3, failed⟩ := y
  exact (h2.trans (quiet_reportMaybe he failed _)).trans (quiet_reportMaybe he replaced _)

theorem quiet_takeAll (events : List Event) (s : State) : Quiet s (takeAll emit events s) := by
  unfold takeAll
  induction events generalizing s with
  | nil => exact Quiet.refl s
  | cons e rest ih => exact (he e s).trans (ih _)

end Emit

/-! ### Reactions -/

theorem quiet_reactionNotice (n : EntryId) (o : ReactionOutcome) (e : Event) (d : Nat) (s : State) :
    Quiet s (reactionNotice n o e d s) := by
  unfold reactionNotice
  split
  · exact quiet_place s _ _
  · exact Quiet.refl s

theorem quiet_skipReaction (n : EntryId) (o : ReactionOutcome) (e : Event) (d : Nat) (s : State) :
    Quiet s (skipReaction n o e d s) := by
  unfold skipReaction
  split
  · rename_i r h
    exact (quiet_setReaction (by rw [h]; rfl)).trans (quiet_reactionNotice n o e d _)
  · exact Quiet.refl s

section Emit

variable {emit : Event → State → State} (he : ∀ e s, Quiet s (emit e s))
include he

theorem quiet_carryOut (n : EntryId) (a : Action) (e : Event) (d : Nat) (s : State) :
    Quiet s (carryOut emit n a e d s) := by
  unfold carryOut
  cases a with
  | halt m action => exact (quiet_stopAction m _ action s).trans (quiet_takeAll he _ _)
  | segment m seg replace =>
    dsimp only
    split
    · rename_i h; exact (quiet_handIn h).trans (quiet_takeAll he _ _)
    · exact quiet_skipReaction n _ e d s
  | play v cue =>
    dsimp only
    split
    · exact quiet_playVoice he v cue s
    · exact quiet_skipReaction n _ e d s
  | stop v fade => exact quiet_stopVoice he v fade s
  | notify code => exact quiet_reactionNotice n _ e d s

theorem quiet_actOn (n : EntryId) (r : Reaction) (e : Event) (d : Nat) (s : State) :
    Quiet s (actOn emit n r e d s) := by
  unfold actOn
  split
  · exact quiet_carryOut he n _ e d s
  · split
    · exact quiet_carryOut he n _ e d s
    · exact quiet_skipReaction n _ e d s

theorem quiet_fireEntry (d : Nat) (e : Event) (s : State) (n : EntryId) : Quiet s (fireEntry emit d e s n) := by
  unfold fireEntry
  split
  · exact Quiet.refl s
  · rename_i r h
    split
    · exact (quiet_setReaction (by rw [h]; rfl)).trans (quiet_actOn he n r e d _)
    · exact Quiet.refl s

end Emit

theorem quiet_tooDeepEntry (d : Nat) (e : Event) (s : State) (n : EntryId) : Quiet s (tooDeepEntry d e s n) := by
  unfold tooDeepEntry
  split
  · exact Quiet.refl s
  · split
    · exact quiet_skipReaction n _ e d s
    · exact Quiet.refl s

/-- A fold of quiet work is quiet. -/
theorem quiet_foldl {α : Type} {f : State → α → State} (h : ∀ s a, Quiet s (f s a)) (xs : List α) (s : State) :
    Quiet s (xs.foldl f s) := by
  induction xs generalizing s with
  | nil => exact Quiet.refl s
  | cons a rest ih => exact (h s a).trans (ih _)

/-- R129, R130: an event taken by the reactions, whatever they do, is quiet. -/
theorem quiet_takeEvent (k : Nat) : ∀ (e : Event) (s : State), Quiet s (takeEvent k e s) := by
  induction k with
  | zero => intro e s; exact quiet_foldl (quiet_tooDeepEntry 4 e) _ s
  | succ k ih => intro e s; exact quiet_foldl (quiet_fireEntry ih (3 - k) e) _ s

theorem quiet_react (e : Event) (s : State) : Quiet s (react e s) := quiet_takeEvent 4 e s

theorem quiet_reactAll (es : List Event) (s : State) : Quiet s (reactAll es s) := quiet_takeAll quiet_react es s

theorem quiet_afterEvents {s : State} {x : State × List Event} (h : Quiet s x.1) : Quiet s (afterEvents x) :=
  h.trans (quiet_reactAll x.2 x.1)

/-- AOUT set on both sides of quiet work. -/
theorem quiet_aout {s t : State} (h : Quiet s t) (x : Int) : Quiet { s with aout := x } { t with aout := x } where
  time := h.time
  linkUp := h.linkUp
  resetTaken := h.resetTaken
  motorClaims := h.motorClaims
  voiceClaims := h.voiceClaims
  encoder := h.encoder
  pwm := h.pwm
  aout := rfl
  store := h.store
  windows := h.windows
  cues := h.cues
  master := h.master
  subs := h.subs
  pending := h.pending
  budget := h.budget
  grants := h.grants
  reactions := h.reactions
  clips := h.clips
  watchTable := h.watchTable
  slots := fun src => by cases src <;> [exact h.slots .program; exact h.slots .tablet]
  rx := fun src => by cases src <;> [exact h.rx .program; exact h.rx .tablet]
  tx := fun src => by cases src <;> [exact h.tx .program; exact h.tx .tablet]
  readyIn := fun src => by cases src <;> [exact h.readyIn .program; exact h.readyIn .tablet]
  begun := fun src => by cases src <;> [exact h.begun .program; exact h.begun .tablet]
  draws := fun src => by cases src <;> [exact h.draws .program; exact h.draws .tablet]
  waiting := fun src => by cases src <;> [exact h.waiting .program; exact h.waiting .tablet]
  notices := fun src => by cases src <;> [exact h.notices .program; exact h.notices .tablet]
  chains := h.chains
  links := fun src => by cases src <;> [exact h.links .program; exact h.links .tablet]
  allChains := h.allChains
  channels := h.channels
  copy := h.copy
  watches := h.watches

theorem quiet_closeVoices (a b c d : VoiceStep) (s : State) : Quiet s (closeVoices react a b c d s) := by
  unfold closeVoices
  have h0 := quiet_closeStep 0 a s
  generalize closeStep 0 a s = x0 at h0 ⊢
  obtain ⟨t0, r0⟩ := x0
  dsimp only at h0 ⊢
  have h1 := h0.trans (quiet_closeStep 1 b t0)
  generalize closeStep 1 b t0 = x1 at h1 ⊢
  obtain ⟨t1, r1⟩ := x1
  dsimp only at h1 ⊢
  have h2 := h1.trans (quiet_closeStep 2 c t1)
  generalize closeStep 2 c t1 = x2 at h2 ⊢
  obtain ⟨t2, r2⟩ := x2
  dsimp only at h2 ⊢
  have h3 := h2.trans (quiet_closeStep 3 d t2)
  generalize closeStep 3 d t2 = x3 at h3 ⊢
  obtain ⟨t3, r3⟩ := x3
  exact h3.trans (quiet_foldl (fun s r => quiet_reportVoice quiet_react r s) _ _)

/-- R154: an output sample changes AOUT, and is quiet but for that. -/
theorem quiet_outputSample (s : State) : ∃ x, Quiet { s with aout := x } (outputSample react s) := by
  unfold outputSample
  dsimp only
  have h0 := quiet_stepVoice 0 s
  generalize stepVoice 0 s = a at h0 ⊢
  have h1 := h0.trans (quiet_stepVoice 1 a.state)
  generalize stepVoice 1 a.state = b at h1 ⊢
  have h2 := h1.trans (quiet_stepVoice 2 b.state)
  generalize stepVoice 2 b.state = c at h2 ⊢
  have h3 := h2.trans (quiet_stepVoice 3 c.state)
  generalize stepVoice 3 c.state = d at h3 ⊢
  exact ⟨_, (quiet_aout h3 _).trans (quiet_closeVoices a b c d _)⟩

end Sys2Proof.Machine
end

