-- ==== Sys2Proof/Laws/Calm.lean ====
section
/-! SUPPORT. What the channel map's work can change (Chapters 6 and 7): samples and losses taken by motors and watches are
`Local`, and the copy engine, the judging of channels and module reports are `Calm`. -/

namespace Sys2Proof.Machine

open Sys2Proof.Safety

/-! ### Watches -/

/-- A watch replaced by one that stores the same is local. -/
theorem local_setWatch {s : State} {n : EntryId} {x : Option Watch}
    (h : x.map storedWatch = (s.watch n).map storedWatch) : Local s (s.setWatch n x) :=
  { Quiet.refl s with
    watchTable := fun k => by
      by_cases e : n = k
      · subst e; rw [State.watch_setWatch_self]; exact h
      · rw [State.watch_setWatch_ne _ _ e]
    grants := fun h => h
    reactions := fun _ => rfl
    clips := fun _ => rfl
    slots := fun _ => by rfl
    rx := fun _ => by rfl
    tx := fun _ => by rfl
    readyIn := fun _ => by rfl
    begun := fun _ => by rfl
    draws := fun _ => by rfl
    waiting := fun _ => List.prefix_rfl
    notices := fun _ h => h
    chains := fun _ => QueuesOnly.refl _
    links := fun src => by cases src <;> exact NoticesOnly.refl _ }

theorem storedWatch_evaluate (w : Watch) (v : Int) : storedWatch (evaluateWatch w v).1 = storedWatch w := by
  unfold evaluateWatch
  split <;> first
    | (unfold evaluateChange; split <;> [rfl; (split <;> rfl)])
    | (unfold evaluateLevel; split <;> (split <;> rfl))

theorem storedWatch_lose (w : Watch) : storedWatch (loseWatch w).1 = storedWatch w := by
  unfold loseWatch
  split
  · split <;> rfl
  · rfl

theorem local_sampleEntry (ch : ChannelId) (acc : State × List EntryId) (n : EntryId) :
    Local acc.1 (sampleEntry ch acc n).1 := by
  unfold sampleEntry
  split
  · exact (Quiet.refl _).toLocal
  · rename_i w h
    dsimp only
    split
    · exact local_setWatch (by rw [h, Option.map_some, Option.map_some, storedWatch_evaluate])
    · exact (Quiet.refl _).toLocal

theorem local_lossEntry (ch : ChannelId) (acc : State × List EntryId) (n : EntryId) :
    Local acc.1 (lossEntry ch acc n).1 := by
  unfold lossEntry
  split
  · exact (Quiet.refl _).toLocal
  · rename_i w h
    dsimp only
    split
    · exact local_setWatch (by rw [h, Option.map_some, Option.map_some, storedWatch_lose])
    · exact (Quiet.refl _).toLocal

/-- A fold over pairs whose states stay local. -/
theorem local_foldl_fst {α β : Type} {f : State × β → α → State × β} (h : ∀ acc a, Local acc.1 (f acc a).1)
    (xs : List α) (acc : State × β) : Local acc.1 (xs.foldl f acc).1 := by
  induction xs generalizing acc with
  | nil => exact (Quiet.refl _).toLocal
  | cons a rest ih => exact (h acc a).trans (ih _)

theorem local_foldl {α : Type} {f : State → α → State} (h : ∀ s a, Local s (f s a)) (xs : List α) (s : State) :
    Local s (xs.foldl f s) := by
  induction xs generalizing s with
  | nil => exact (Quiet.refl _).toLocal
  | cons a rest ih => exact (h s a).trans (ih _)

theorem quiet_watchNotice (c : WatchCause) (s : State) (n : EntryId) : Quiet s (watchNotice c s n) := by
  unfold watchNotice
  split
  · exact Quiet.refl s
  · exact quiet_place s _ _

theorem quiet_reportFirings (c : WatchCause) (x : State × List EntryId) : Quiet x.1 (reportFirings c x) := by
  unfold reportFirings
  exact (quiet_foldl (quiet_watchNotice c) _ _).trans (quiet_foldl (fun s n => quiet_react _ s) _ _)

/-- R123, R126: the watches at a fresh sample. -/
theorem local_watchSample (ch : ChannelId) (s : State) : Local s (watchSample ch s) :=
  (local_foldl_fst (local_sampleEntry ch) allEntries (s, [])).trans (quiet_reportFirings _ _).toLocal

/-- R125, R126: the watches at a loss. -/
theorem local_watchLoss (ch : ChannelId) (c : WatchCause) (s : State) : Local s (watchLoss ch c s) :=
  (local_foldl_fst (local_lossEntry ch) allEntries (s, [])).trans (quiet_reportFirings _ _).toLocal

/-- R34, R107, R113: a channel's loss. -/
theorem local_channelLoss (ch : ChannelId) (c : WatchCause) (s : State) : Local s (channelLoss ch c s) :=
  (quiet_foldl (fun t m => quiet_afterEvents (quiet_lossAtMotor ch m t)) allMotors s).toLocal.trans
    (local_watchLoss ch c _)

/-- R33, R109: a fresh sample delivered. -/
theorem local_deliverSample (ch : ChannelId) (s : State) : Local s (deliverSample ch s) :=
  (quiet_foldl (fun t m => quiet_afterEvents (quiet_sampleAtMotor ch m t)) allMotors s).toLocal.trans
    (local_watchSample ch _)

/-! ### Channels and the copy engine -/

/-- Work that changes channels, the copy engine and the queues of chains alone is calm. -/
theorem Calm.ofChannels {s t : State}
    (same : t = { s with chains := t.chains, channels := t.channels, copy := t.copy })
    (chains : ∀ p, QueuesOnly (s.chain p) (t.chain p)) : Calm s t where
  time := by rw [same]
  linkUp := by rw [same]
  resetTaken := by rw [same]
  motorClaims := by rw [same]
  voiceClaims := by rw [same]
  encoder := by rw [same]
  pwm := by rw [same]
  aout := by rw [same]
  store := by rw [same]
  windows := by rw [same]
  cues := by rw [same]
  master := by rw [same]
  subs := by rw [same]
  pending := by rw [same]
  budget := by rw [same]
  grants := by rw [same]; exact fun h => h
  reactions := by intro n; rw [same]; rfl
  clips := by intro n; rw [same]; rfl
  watchTable := by intro n; rw [same]; rfl
  slots := by intro src; rw [same]; rfl
  rx := by intro src; rw [same]; rfl
  tx := by intro src; rw [same]; rfl
  readyIn := by intro src; rw [same]; rfl
  begun := by intro src; rw [same]; rfl
  draws := by intro src; rw [same]; rfl
  waiting := by intro src; rw [same]; cases src <;> exact List.prefix_rfl
  notices := by intro src; rw [same]; cases src <;> exact fun h => h
  chains := chains
  links := by intro src; rw [same]; cases src <;> exact NoticesOnly.refl _

theorem Calm.refl (s : State) : Calm s s := (Quiet.refl s).toCalm

theorem calm_setChannel (s : State) (ch : ChannelId) (x : Channel) : Calm s (s.setChannel ch x) :=
  Calm.ofChannels rfl fun _ => QueuesOnly.refl _

theorem calm_modChannel (s : State) (ch : ChannelId) (f : Channel → Channel) : Calm s (s.modChannel ch f) :=
  calm_setChannel s ch _

theorem calm_copy (s : State) (x : Option Copy) : Calm s { s with copy := x } :=
  Calm.ofChannels rfl fun _ => QueuesOnly.refl _

/-- A chain replaced by one that differs in its queues alone. -/
theorem calm_setChain {s : State} {p : PortId} {c : Chain} (h : QueuesOnly (s.chain p) c) : Calm s (s.setChain p c) :=
  Calm.ofChannels rfl fun q => by
    by_cases e : p = q
    · subst e; rw [State.chain_setChain_self]; exact h
    · rw [State.chain_setChain_ne _ _ e]; exact QueuesOnly.refl _

theorem calm_modChain {s : State} {p : PortId} {f : Chain → Chain} (h : QueuesOnly (s.chain p) (f (s.chain p))) :
    Calm s (s.modChain p f) := calm_setChain h

theorem calm_foldl {α : Type} {f : State → α → State} (h : ∀ s a, Calm s (f s a)) (xs : List α) (s : State) :
    Calm s (xs.foldl f s) := by
  induction xs generalizing s with
  | nil => exact Calm.refl s
  | cons a rest ih => exact (h s a).trans (ih _)

theorem calm_channelNotice (ch : ChannelId) (l : ChannelState) (c : ChannelCause) (s : State) :
    Calm s (channelNotice ch l c s) := (quiet_placeBoth s _).toCalm

theorem calm_channelLoss (ch : ChannelId) (c : WatchCause) (s : State) : Calm s (channelLoss ch c s) :=
  (local_channelLoss ch c s).toCalm

theorem calm_enterLost (ch : ChannelId) (c : ChannelCause) (s : State) : Calm s (enterLost ch c s) :=
  ((calm_modChannel s ch _).trans (calm_channelNotice ch _ c _)).trans (calm_channelLoss ch _ _)

theorem calm_changeChannel (ch : ChannelId) (c : ChannelCause) (f : Channel → Channel) (s : State) :
    Calm s (changeChannel ch c f s) := (calm_modChannel s ch f).trans (calm_channelNotice ch _ c _)

theorem calm_handCopyWrite {p : PortId} {op : PageOp} {s t : State} (h : handCopyWrite p op s = some t) :
    Calm s t := by
  unfold handCopyWrite at h
  dsimp only at h
  split at h
  · cases h
  · split at h
    · cases h; exact calm_setChain rfl
    · cases h; exact calm_setChain rfl

theorem calm_handNext {c : Copy} {s t : State} (h : handNext c s = some t) : Calm s t := by
  unfold handNext at h
  split at h
  · exact calm_handCopyWrite h
  · cases h

theorem calm_orphanCopies (s : State) : Calm s (orphanCopies s) :=
  calm_foldl (fun t p => calm_modChain (by rfl)) allPorts s

theorem calm_freeEngine (s : State) : Calm s (freeEngine s) := (calm_copy s none).trans (calm_orphanCopies _)

theorem calm_startCopy (ch : ChannelId) (s : State) : Calm s (startCopy ch s) := by
  unfold startCopy
  split
  · exact calm_enterLost ch _ s
  · rename_i c h
    have k := (calm_copy s (some c)).trans (calm_changeChannel ch .copyStarted
      (fun x => { staleChannel x with state := .copying }) _)
    dsimp only
    split
    · rename_i e; exact k.trans (calm_handNext e)
    · exact k.trans ((calm_freeEngine _).trans (calm_enterLost ch _ _))

theorem calm_runEngine (n : Nat) : ∀ s : State, Calm s (runEngine n s) := by
  induction n with
  | zero => intro s; exact Calm.refl s
  | succ n ih =>
    intro s
    unfold runEngine
    split
    · exact Calm.refl s
    · split
      · exact Calm.refl s
      · exact (calm_startCopy _ s).trans (ih _)

theorem calm_failCopy (ch : ChannelId) (c : ChannelCause) (s : State) : Calm s (failCopy ch c s) :=
  ((calm_freeEngine s).trans (calm_enterLost ch c _)).trans (calm_runEngine 16 _)

/-- R115, R117: a write of the running copy has ended. -/
theorem calm_copyWriteEnded (done : Bool) (s : State) : Calm s (copyWriteEnded done s) := by
  unfold copyWriteEnded
  split
  · exact Calm.refl s
  · split
    · dsimp only
      split
      · split
        · rename_i e; exact (calm_copy s _).trans (calm_handNext e)
        · exact (calm_copy s _).trans (calm_failCopy _ _ _)
      · exact calm_copy s _
    · exact calm_failCopy _ _ s

theorem calm_completeCopy (ch : ChannelId) (s : State) : Calm s (completeCopy ch s) :=
  ((calm_changeChannel ch .copyDone _ s).trans (calm_copy _ none)).trans (calm_runEngine 16 _)

theorem calm_servingFalls (ch : ChannelId) (s : State) : Calm s (servingFalls ch s) := by
  unfold servingFalls
  split
  · exact (calm_changeChannel ch _ _ s).trans (calm_runEngine 16 _)
  · exact calm_enterLost ch _ s

theorem calm_judgeSingle (ch : ChannelId) (s : State) : Calm s (judgeSingle ch s) := by
  unfold judgeSingle
  dsimp only
  split
  · exact calm_enterLost ch _ s
  · split
    · exact calm_enterLost ch _ s
    · split
      · exact calm_changeChannel ch _ _ s
      · split
        · exact calm_changeChannel ch _ _ s
        · exact Calm.refl s

theorem calm_recoverChannel (ch : ChannelId) (s : State) : Calm s (recoverChannel ch s) := by
  unfold recoverChannel
  dsimp only
  split
  · exact calm_changeChannel ch _ _ s
  · exact Calm.refl s

theorem calm_judgeFresh (ch : ChannelId) (s : State) : Calm s (judgeFresh ch s) := by
  unfold judgeFresh
  split
  · exact Calm.refl s
  · split
    · split
      · exact Calm.refl s
      · exact calm_modChannel s ch _
    · exact calm_modChannel s ch _

/-- R112: one channel judged. -/
theorem calm_judgeChannel (ch : ChannelId) (s : State) : Calm s (judgeChannel ch s) := by
  unfold judgeChannel
  refine (calm_judgeFresh ch s).trans ?_
  generalize judgeFresh ch s = u
  dsimp only
  split
  · exact Calm.refl u
  · exact calm_judgeSingle ch u
  · split
    · exact calm_servingFalls ch u
    · split
      · exact Calm.refl u
      · exact calm_changeChannel ch _ _ u
  · split
    · exact calm_servingFalls ch u
    · split
      · exact calm_changeChannel ch _ _ u
      · exact Calm.refl u
  · split
    · exact calm_enterLost ch _ u
    · exact Calm.refl u
  · split
    · exact calm_failCopy ch _ u
    · split
      · split
        · exact calm_completeCopy ch u
        · exact Calm.refl u
      · exact Calm.refl u
  · exact calm_recoverChannel ch u

/-- R104, R112: a module report. -/
theorem calm_moduleReport (p : PortId) (ks : List ModulePos) (s : State) : Calm s (moduleReport p ks s) := by
  unfold moduleReport
  split
  · exact Calm.refl s
  · refine calm_foldl (fun t ch => ?_) allChannels s
    split
    · exact calm_judgeChannel ch t
    · exact Calm.refl t

/-- R109: a sample handed to the channel map. -/
theorem calm_channelSample (n : ModuleName) (r : ModuleRecord) (x : Sample) (s : State) :
    Calm s (channelSample n r x s) := by
  unfold channelSample
  split
  · exact Calm.refl s
  · dsimp only
    split
    · exact (calm_setChannel s _ _).trans (local_deliverSample _ _).toCalm
    · exact Calm.refl s

theorem calm_mapChannel (ch : ChannelId) (c : Channel) (s : State) : Calm s (mapChannel ch c s) := by
  unfold mapChannel
  have h := (calm_setChannel s ch c).trans (calm_channelNotice ch (s.channel ch).state .mapped _)
  dsimp only
  split
  · exact h.trans (calm_channelLoss ch _ _)
  · exact h

theorem calm_clearChannel (ch : ChannelId) (s : State) : Calm s (clearChannel ch s) :=
  ((calm_setChannel s ch _).trans (calm_channelNotice ch _ _ _)).trans (calm_channelLoss ch _ _)

end Sys2Proof.Machine
end

