-- ==== Sys2Proof/Laws/Chains.lean ====
section
/-! SUPPORT. What the work of a chain can change (Chapter 5): every operation of chain `p` is `AtPort p`, and the wires
handed out are `Steady`; a chain whose wire is busy, or that is not live, keeps all but its queues then. -/

namespace Sys2Proof.Safety

open Sys2Proof.Machine

theorem Steady.refl (s : State) : Steady s s := (Quiet.refl s).toSteady

theorem AtPort.trans {p : PortId} {a b c : State} (h : AtPort p a b) (k : AtPort p b c) : AtPort p a c where
  toSteady := h.toSteady.trans k.toSteady
  others := fun q e => QueuesOnly.trans (h.others q e) (k.others q e)

theorem Calm.atPort {s t : State} (h : Calm s t) (p : PortId) : AtPort p s t where
  toSteady := h.toSteady
  others := fun q _ => h.chains q

theorem AtPort.refl (p : PortId) (s : State) : AtPort p s s := (Calm.refl s).atPort p

/-- Work that changes chains alone is steady. -/
theorem Steady.ofChains {s t : State} (same : t = { s with chains := t.chains }) : Steady s t where
  time := by rw [same]
  linkUp := by rw [same]
  resetTaken := by rw [same]
  motorClaims := by rw [same]
  voiceClaims := by rw [same]
  encoder := by rw [same]
  pwm := by rw [same]
  aout := by rw [same]
  store := by rw [same]
  windows := by rw [same]
  cues := by rw [same]
  master := by rw [same]
  subs := by rw [same]
  pending := by rw [same]
  budget := by rw [same]
  grants := by rw [same]; exact fun h => h
  reactions := by intro n; rw [same]; rfl
  clips := by intro n; rw [same]; rfl
  watchTable := by intro n; rw [same]; rfl
  slots := by intro src; rw [same]; rfl
  rx := by intro src; rw [same]; rfl
  tx := by intro src; rw [same]; rfl
  readyIn := by intro src; rw [same]; rfl
  begun := by intro src; rw [same]; rfl
  draws := by intro src; rw [same]; rfl
  waiting := by intro src; rw [same]; cases src <;> exact List.prefix_rfl
  notices := by intro src; rw [same]; cases src <;> exact fun h => h

end Sys2Proof.Safety

namespace Sys2Proof.Machine

open Sys2Proof.Safety

/-! ### Single writes -/

theorem atPort_setChain (s : State) (p : PortId) (c : Chain) : AtPort p s (s.setChain p c) where
  toSteady := Steady.ofChains rfl
  others := fun q e => by rw [State.chain_setChain_ne _ _ (Ne.symm e)]; exact QueuesOnly.refl _

theorem atPort_modChain (s : State) (p : PortId) (f : Chain → Chain) : AtPort p s (s.modChain p f) :=
  atPort_setChain s p _

theorem atPort_setModule (s : State) (p : PortId) (k : ModulePos) (r : ModuleRecord) :
    AtPort p s (s.setModule p k r) := atPort_modChain s p _

/-- R179: a reply made waiting leaves everything but the link's waiting replies. -/
theorem steady_post (s : State) (src : Source) (i : Fin 8) (r : Reply) : Steady s (s.post src i r) where
  time := by simp
  linkUp := by simp
  resetTaken := by simp
  motorClaims := by simp
  voiceClaims := by simp
  encoder := by simp
  pwm := by simp
  aout := by simp
  store := by simp
  windows := by simp
  cues := by simp
  master := by simp
  subs := by simp
  pending := by simp
  budget := by simp
  grants := by simp
  reactions := by intro n; unfold State.reaction; simp
  clips := by intro n; unfold State.clip; simp
  watchTable := by intro n; unfold State.watch; simp
  slots := by
    intro a; unfold State.post; rw [State.link_setLink]; split
    · rename_i e; subst e; unfold LinkUnit.post; split <;> rfl
    · rfl
  rx := by
    intro a; unfold State.post; rw [State.link_setLink]; split
    · rename_i e; subst e; unfold LinkUnit.post; split <;> rfl
    · rfl
  tx := by
    intro a; unfold State.post; rw [State.link_setLink]; split
    · rename_i e; subst e; unfold LinkUnit.post; split <;> rfl
    · rfl
  readyIn := by
    intro a; unfold State.post; rw [State.link_setLink]; split
    · rename_i e; subst e; unfold LinkUnit.post; split <;> rfl
    · rfl
  begun := by
    intro a; unfold State.post; rw [State.link_setLink]; split
    · rename_i e; subst e; unfold LinkUnit.post; split <;> rfl
    · rfl
  draws := by
    intro a; unfold State.post; rw [State.link_setLink]; split
    · rename_i e; subst e; unfold LinkUnit.post; split <;> rfl
    · rfl
  waiting := by
    intro a; unfold State.post; rw [State.link_setLink]; split
    · rename_i e; subst e; unfold LinkUnit.post; split
      · exact List.prefix_rfl
      · exact List.prefix_append _ _
    · exact List.prefix_rfl
  notices := by
    intro a; unfold State.post; rw [State.link_setLink]; split
    · rename_i e; subst e; unfold LinkUnit.post; split <;> exact fun h => h
    · exact fun h => h

theorem atPort_post (p : PortId) (s : State) (src : Source) (i : Fin 8) (r : Reply) : AtPort p s (s.post src i r) where
  toSteady := steady_post s src i r
  others := fun q _ => by unfold State.chain; rw [State.post_chains]; exact QueuesOnly.refl _

theorem atPort_foldl {p : PortId} {α : Type} {f : State → α → State} (h : ∀ s a, AtPort p s (f s a)) (xs : List α)
    (s : State) : AtPort p s (xs.foldl f s) := by
  induction xs generalizing s with
  | nil => exact AtPort.refl p s
  | cons a rest ih => exact (h s a).trans (ih _)

theorem atPort_foldl_fst {p : PortId} {α β : Type} {f : State × β → α → State × β}
    (h : ∀ acc a, AtPort p acc.1 (f acc a).1) (xs : List α) (acc : State × β) :
    AtPort p acc.1 (xs.foldl f acc).1 := by
  induction xs generalizing acc with
  | nil => exact AtPort.refl p _
  | cons a rest ih => exact (h acc a).trans (ih _)

/-! ### Modules and chain states (R96, R99, R104) -/

theorem quiet_moduleNotice (p : PortId) (k : ModulePos) (l : ModuleState) (c : ModuleCause) (s : State) :
    Quiet s (moduleNotice p k l c s) := by
  unfold moduleNotice
  split
  · exact Quiet.refl s
  · exact quiet_placeBoth s _

theorem calm_staleServed (p : PortId) (k : ModulePos) (s : State) : Calm s (staleServed p k s) := by
  refine calm_foldl (fun t ch => ?_) allChannels s
  split
  · exact calm_modChannel t ch _
  · exact Calm.refl t

theorem atPort_changeModule (p : PortId) (k : ModulePos) (c : ModuleCause) (f : ModuleRecord → ModuleRecord)
    (s : State) : AtPort p s (changeModule p k c f s) := by
  unfold changeModule
  split
  · exact AtPort.refl p s
  · rename_i r h
    dsimp only
    split
    · exact ((atPort_setModule s p k _).trans ((calm_staleServed p k _).atPort p)).trans
        ((quiet_moduleNotice p k _ c _).toCalm.atPort p)
    · exact (atPort_setModule s p k _).trans ((quiet_moduleNotice p k _ c _).toCalm.atPort p)

theorem atPort_absentModule (p : PortId) (k : ModulePos) (c : ModuleCause) (s : State) :
    AtPort p s (absentModule p k c s).1 := by
  unfold absentModule
  split
  · exact AtPort.refl p s
  · split
    · exact AtPort.refl p s
    · exact atPort_changeModule p k c _ s

theorem atPort_enterSettling (p : PortId) (k : ModulePos) (c : ModuleCause) (s : State) :
    AtPort p s (enterSettling p k c s) := by
  unfold enterSettling
  dsimp only
  have h := atPort_changeModule p k c settlingRecord s
  split
  · split
    · exact h.trans (atPort_changeModule p k _ _ _)
    · exact h
  · exact h

theorem quiet_chainNotice (p : PortId) (l : ChainState) (c : ChainCause) (s : State) :
    Quiet s (chainNotice p l c s) := quiet_placeBoth s _

theorem atPort_changeChain (p : PortId) (st : ChainState) (c : ChainCause) (s : State) :
    AtPort p s (changeChain p st c s) :=
  (atPort_modChain s p _).trans (((quiet_chainNotice p _ c _).trans (quiet_react _ _)).toCalm.atPort p)

/-- R96: a change of state leaves every chain but for its own state. -/
theorem chains_changeChain (p : PortId) (st : ChainState) (c : ChainCause) (s : State) :
    (changeChain p st c s).chains = (s.modChain p fun x => { x with state := st }).chains :=
  ((quiet_chainNotice p _ c _).trans (quiet_react _ _)).allChains

/-- R96: a change of state, beside the chain's state, is quiet. -/
theorem quiet_changeChain (p : PortId) (st : ChainState) (c : ChainCause) (s : State) :
    Quiet (s.modChain p fun x => { x with state := st }) (changeChain p st c s) :=
  (quiet_chainNotice p _ c _).trans (quiet_react _ _)

theorem atPort_absentAll (p : PortId) (c : ModuleCause) (s : State) : AtPort p s (absentAll p c s).1 := by
  unfold absentAll
  refine atPort_foldl_fst (fun acc k => ?_) _ (s, [])
  have h := atPort_absentModule p k c acc.1
  generalize absentModule p k c acc.1 = x at h ⊢
  obtain ⟨t, changed⟩ := x
  exact h

theorem atPort_moduleReport (p q : PortId) (ks : List ModulePos) (s : State) : AtPort p s (moduleReport q ks s) :=
  (calm_moduleReport q ks s).atPort p

theorem atPort_enterBringUp (p : PortId) (c : ChainCause) (ks : List ModulePos) (s : State) :
    AtPort p s (enterBringUp p c ks s) := by
  unfold enterBringUp
  have h := (atPort_modChain s p (Chain.halted (some .resetAll))).trans (atPort_absentAll p .bringUp _)
  generalize absentAll p .bringUp (s.modChain p (Chain.halted (some .resetAll))) = x at h ⊢
  obtain ⟨s1, changed⟩ := x
  dsimp only at h ⊢
  exact (h.trans (atPort_changeChain p .reset c s1)).trans (atPort_moduleReport p p _ _)

theorem atPort_enterOff (p : PortId) (s : State) : AtPort p s (enterOff p s) := by
  unfold enterOff
  have h := (atPort_modChain s p (Chain.halted none)).trans (atPort_absentAll p .off _)
  generalize absentAll p .off (s.modChain p (Chain.halted none)) = x at h ⊢
  obtain ⟨s1, changed⟩ := x
  dsimp only at h ⊢
  exact (h.trans (atPort_changeChain p .off .request s1)).trans (atPort_moduleReport p p _ _)

theorem atPort_abortOp (p : PortId) (s : State) (op : PageOp) : AtPort p s (abortOp s op) := by
  unfold abortOp
  split
  · exact atPort_post p s _ _ _
  · exact (calm_copyWriteEnded false s).atPort p
  · exact AtPort.refl p s

theorem atPort_abortQueue (p : PortId) (n : Nat) : ∀ s : State, AtPort p s (abortQueue p n s) := by
  induction n with
  | zero => intro s; exact AtPort.refl p s
  | succ n ih =>
    intro s
    unfold abortQueue
    dsimp only
    split
    · exact AtPort.refl p s
    · exact ((atPort_setChain s p _).trans (atPort_foldl (atPort_abortOp p) _ _)).trans (ih _)

theorem atPort_abortWork (p : PortId) (s : State) : AtPort p s (abortWork p s) :=
  (atPort_modChain s p _).trans (atPort_abortQueue p 17 _)

theorem atPort_restartChain (p : PortId) (c : ChainCause) (ks : List ModulePos) (s : State) :
    AtPort p s (restartChain p c ks s) := (atPort_abortWork p s).trans (atPort_enterBringUp p c ks _)

theorem atPort_enterFault (p : PortId) (c : ChainCause) (s : State) : AtPort p s (enterFault p c s) :=
  (atPort_modChain s p _).trans (atPort_changeChain p _ c _)

theorem atPort_enterEmpty (p : PortId) (c : ChainCause) (s : State) : AtPort p s (enterEmpty p c s) :=
  (atPort_modChain s p _).trans (atPort_changeChain p _ c _)

theorem atPort_afterAbsence (p : PortId) (gone : Bool) (ks : List ModulePos) (s : State) :
    AtPort p s (afterAbsence p gone ks s) := by
  unfold afterAbsence
  split
  · dsimp only
    have h : AtPort p s (if (s.chain p).state = .active then changeChain p .degraded .moduleAbsent s else s) := by
      split
      · exact atPort_changeChain p _ _ s
      · exact AtPort.refl p s
    generalize (if (s.chain p).state = .active then changeChain p .degraded .moduleAbsent s else s) = u at h ⊢
    split
    · exact h.trans (atPort_restartChain p _ _ u)
    · exact h.trans (atPort_moduleReport p p _ u)
  · exact atPort_moduleReport p p ks s

theorem atPort_swapWire (p : PortId) (s : State) : AtPort p s (swapWire p s) := by
  unfold swapWire
  dsimp only
  split
  · exact (atPort_modChain s p _).trans (atPort_changeChain p _ _ _)
  · exact atPort_modChain s p _

/-! ### Bring-up (R75 to R81) -/

theorem atPort_sendCall (p : PortId) (c : Call) (s : State) : AtPort p s (sendCall p c s) := atPort_modChain s p _

theorem atPort_beginTrain (p : PortId) (s : State) : AtPort p s (beginTrain p s) := by
  unfold beginTrain
  have h := (atPort_modChain s p Chain.enterTrain).trans (atPort_changeChain p .train .step _)
  generalize changeChain p .train .step (s.modChain p Chain.enterTrain) = s1 at h ⊢
  exact h.trans (atPort_modChain s1 p _)

theorem atPort_trainOutcome (p : PortId) (e : Ears) (s : State) : AtPort p s (trainOutcome p e s) := by
  unfold trainOutcome
  split
  · exact ((atPort_modChain s p _).trans (atPort_changeChain p _ _ _)).trans (atPort_modChain _ p _)
  · split
    · exact atPort_enterEmpty p _ s
    · exact AtPort.refl p s

theorem atPort_probeOutcome (p : PortId) (e : Ears) (s : State) : AtPort p s (probeOutcome p e s) := by
  unfold probeOutcome
  split
  · exact atPort_enterBringUp p _ _ s
  · exact AtPort.refl p s

theorem atPort_rollcallNotices (p : PortId) (s : State) : AtPort p s (rollcallNotices p s) :=
  (quiet_foldl (fun t k => quiet_moduleNotice p k .absent .rollcall t) _ s).toCalm.atPort p

theorem atPort_endRollcall (p : PortId) (s : State) : AtPort p s (endRollcall p s) := by
  unfold endRollcall
  dsimp only
  have h1 := atPort_modChain s p Chain.settled
  generalize s.modChain p Chain.settled = s1 at h1 ⊢
  have h2 := (h1.trans (atPort_rollcallNotices p s1)).trans (atPort_changeChain p .config .step _)
  generalize changeChain p .config .step (rollcallNotices p s1) = s2 at h2 ⊢
  exact (h2.trans (atPort_modChain s2 p _)).trans (atPort_moduleReport p p _ _)

theorem atPort_endRollcallEmpty (p : PortId) (s : State) : AtPort p s (endRollcallEmpty p s) := by
  unfold endRollcallEmpty
  dsimp only
  have h := (atPort_modChain s p fun c => { c with modules := [] }).trans (atPort_enterEmpty p .noModule _)
  generalize enterEmpty p .noModule (s.modChain p fun c => { c with modules := [] }) = s1 at h ⊢
  exact h.trans (atPort_moduleReport p p _ s1)

theorem atPort_rollcallAnswer (p : PortId) (k : ModulePos) (x : Identity) (last : Bool) (s : State) :
    AtPort p s (rollcallAnswer p k x last s) := by
  unfold rollcallAnswer
  dsimp only
  split
  · exact (atPort_modChain s p _).trans (atPort_endRollcall p _)
  · exact (atPort_modChain s p _).trans (atPort_modChain _ p _)

theorem atPort_rollcallOutcome (p : PortId) (k : ModulePos) (x : Result) (s : State) :
    AtPort p s (rollcallOutcome p k x s) := by
  unfold rollcallOutcome
  split
  · exact atPort_rollcallAnswer p k _ _ s
  · exact AtPort.refl p s
  · split
    · exact atPort_endRollcallEmpty p s
    · exact atPort_endRollcall p s
  · dsimp only
    split
    · exact atPort_enterFault p _ s
    · exact atPort_modChain s p _

theorem atPort_configNext (p : PortId) (s : State) : AtPort p s (configNext p s) := by
  unfold configNext
  dsimp only
  split
  · exact (atPort_modChain s p _).trans (atPort_sendCall p _ _)
  · exact ((atPort_modChain s p _).trans (atPort_modChain _ p _)).trans (atPort_changeChain p _ _ _)

theorem atPort_storePage (p : PortId) (k : ModulePos) (page : Page) (bytes : PageBytes) (s : State) :
    AtPort p s (storePage p k page bytes s) := by
  unfold storePage
  split
  · exact atPort_setModule s p k _
  · exact AtPort.refl p s

theorem atPort_startWritten (p : PortId) (k : ModulePos) (s : State) : AtPort p s (startWritten p k s) := by
  unfold startWritten
  split
  · exact (atPort_setModule s p k _).trans (atPort_enterSettling p k _ _)
  · exact AtPort.refl p s

theorem atPort_configDone (p : PortId) (op : ConfigOp) (a : Answer) (s : State) :
    AtPort p s (configDone p op a s) := by
  unfold configDone
  split
  · exact (atPort_storePage p _ _ _ s).trans (atPort_configNext p _)
  · split
    · exact ((atPort_startWritten p _ s).trans (atPort_configNext p _)).trans (atPort_moduleReport p p _ _)
    · exact atPort_configNext p s

theorem atPort_configOutcome (p : PortId) (c : Call) (x : Result) (s : State) :
    AtPort p s (configOutcome p c x s) := by
  unfold configOutcome
  split
  · exact AtPort.refl p s
  · split
    · exact atPort_configDone p _ _ s
    · dsimp only
      split
      · exact atPort_enterFault p _ s
      · exact atPort_modChain s p _

/-! ### A live chain (R86, R89, R100) -/

theorem quiet_chargeNotice (p : PortId) (k : ModulePos) (a b : ModuleRecord) (s : State) :
    Quiet s (chargeNotice p k a b s).1 := by
  unfold chargeNotice
  split
  · exact quiet_moduleNotice p k _ _ s
  · split
    · exact quiet_moduleNotice p k _ _ s
    · exact Quiet.refl s

theorem atPort_chargeFailure (p : PortId) (k : ModulePos) (o : TransactionOutcome) {endTry : State → State}
    (he : ∀ s, AtPort p s (endTry s)) (s : State) : AtPort p s (chargeFailure p k o endTry s) := by
  unfold chargeFailure
  split
  · exact he s
  · rename_i r h
    dsimp only
    generalize chargedRecord (s.chain p).threshold o r = r1
    have h1 := atPort_setModule s p k r1
    generalize s.setModule p k r1 = s1 at h1 ⊢
    have h2 : AtPort p s
        (if r.state = .ready ∧ (r1.state = .absent && r.state ≠ .absent : Bool) then staleServed p k s1 else s1) := by
      split
      · exact h1.trans ((calm_staleServed p k _).atPort p)
      · exact h1
    exact ((h2.trans (he _)).trans ((quiet_chargeNotice p k r r1 _).toCalm.atPort p)).trans
      (atPort_afterAbsence p _ _ _)

theorem atPort_storeSample (p : PortId) (k : ModulePos) (x : Sample) (s : State) :
    AtPort p s (storeSample p k x s) := by
  unfold storeSample
  split
  · exact AtPort.refl p s
  · exact (atPort_setModule s p k _).trans ((calm_channelSample _ _ _ _).atPort p)

theorem atPort_takePollSample (p : PortId) (k : ModulePos) (stamp : Word) (vs : List Half) (s : State) :
    AtPort p s (takePollSample p k stamp vs s) := by
  unfold takePollSample
  split
  · exact atPort_storeSample p k _ s
  · exact AtPort.refl p s

theorem atPort_pollAnswer (p : PortId) (k : ModulePos) (stamp : Word) (vs : List Half) (b : Bool) (s : State) :
    AtPort p s (pollAnswer p k stamp vs b s) := by
  unfold pollAnswer
  split
  · exact AtPort.refl p s
  · rename_i r h
    dsimp only
    generalize chargedRecord (s.chain p).threshold .success r = r1
    have h1 := atPort_setModule s p k r1
    generalize s.setModule p k r1 = s1 at h1 ⊢
    split
    · exact (h1.trans (atPort_takePollSample p k _ _ _)).trans (atPort_restartChain p _ _ _)
    · have h2 := h1.trans ((quiet_chargeNotice p k r r1 s1).toCalm.atPort p)
      exact (h2.trans (atPort_moduleReport p p _ _)).trans (atPort_takePollSample p k _ _ _)

theorem atPort_pollOutcome (p : PortId) (k : ModulePos) (x : Result) (s : State) :
    AtPort p s (pollOutcome p k x s) := by
  unfold pollOutcome
  split
  · exact atPort_pollAnswer p k _ _ _ s
  · exact AtPort.refl p s
  · exact atPort_chargeFailure p k _ (AtPort.refl p) s

theorem atPort_endHead (p : PortId) (op : PageOp) (x : OpEnd) (s : State) : AtPort p s (endHead p op x s) := by
  unfold endHead
  dsimp only
  split
  · exact (atPort_modChain s p _).trans (atPort_post p _ _ _ _)
  · exact (atPort_modChain s p _).trans ((calm_copyWriteEnded _ _).atPort p)
  · exact atPort_modChain s p _

theorem atPort_writeSucceeded (p : PortId) (k : ModulePos) (page : Page) (bytes : PageBytes) (b : ModuleRecord)
    (s : State) : AtPort p s (writeSucceeded p k page bytes b s).1 := by
  unfold writeSucceeded
  split
  · exact AtPort.refl p s
  · dsimp only
    split
    · exact (atPort_setModule s p k _).trans (atPort_enterSettling p k _ _)
    · exact (atPort_setModule s p k _).trans ((quiet_chargeNotice p k _ _ _).toCalm.atPort p)

theorem atPort_opSucceeded (p : PortId) (op : PageOp) (a : Answer) (s : State) :
    AtPort p s (opSucceeded p op a s) := by
  unfold opSucceeded
  split
  · exact AtPort.refl p s
  · rename_i r h
    dsimp only
    generalize chargedRecord (s.chain p).threshold .success r = r1
    have h1 := atPort_setModule s p op.pos r1
    generalize s.setModule p op.pos r1 = s1 at h1 ⊢
    split
    · exact ((h1.trans (atPort_writeSucceeded p _ _ _ r s1)).trans (atPort_endHead p op _ _)).trans
        (atPort_moduleReport p p _ _)
    · exact (((h1.trans (atPort_storePage p _ _ _ s1)).trans ((quiet_chargeNotice p _ _ _ _).toCalm.atPort p)).trans
        (atPort_endHead p op _ _)).trans (atPort_moduleReport p p _ _)
    · exact h1

theorem atPort_opTryFailed (p : PortId) (op : PageOp) (s : State) : AtPort p s (opTryFailed p op s) := by
  unfold opTryFailed
  split
  · exact atPort_endHead p op _ s
  · exact atPort_modChain s p _

theorem atPort_opOutcome (p : PortId) (x : Result) (s : State) : AtPort p s (opOutcome p x s) := by
  unfold opOutcome
  split
  · exact AtPort.refl p s
  · split
    · exact atPort_opSucceeded p _ _ s
    · exact atPort_chargeFailure p _ _ (atPort_opTryFailed p _) s

/-! ### Wires handed out (R85, R87) -/

theorem atPort_handOut (p : PortId) (s : State) : AtPort p s (handOut p s) := by
  unfold handOut
  dsimp only
  split
  · exact atPort_modChain s p _
  · split
    · exact atPort_setChain s p _
    · split
      · exact atPort_sendCall p _ s
      · exact atPort_endHead p _ _ s
    · exact AtPort.refl p s

/-- A wire that is busy, or whose chain is not live. -/
def Chain.heldBack (c : Chain) : Bool := c.inFlight.isSome || !c.live

theorem Chain.heldBack_queues {c d : Chain} (h : QueuesOnly c d) : d.heldBack = c.heldBack := by
  rw [h]; rfl

theorem Chain.wants_heldBack {c : Chain} (h : c.heldBack = true) : c.wants = false := by
  unfold Chain.heldBack at h
  unfold Chain.wants
  cases hl : c.live <;> cases hi : c.inFlight <;> simp_all

theorem steady_settleWires (n : Nat) : ∀ s : State, Steady s (settleWires n s) := by
  induction n with
  | zero => intro s; exact Steady.refl s
  | succ n ih =>
    intro s
    unfold settleWires
    split
    · exact Steady.refl s
    · exact (atPort_handOut _ s).toSteady.trans (ih _)

/-- R87: a chain whose wire is busy, or that is not live, keeps all but its queues while the wires are handed out. -/
theorem settleWires_heldBack (n : Nat) : ∀ {s : State} {p : PortId} (_ : (s.chain p).heldBack = true),
    QueuesOnly (s.chain p) ((settleWires n s).chain p) := by
  induction n with
  | zero => intro s p _; exact QueuesOnly.refl _
  | succ n ih =>
    intro s p h
    unfold settleWires
    split
    · exact QueuesOnly.refl _
    · rename_i q e
      have w := List.find?_some e
      have ne : p ≠ q := by
        rintro rfl
        rw [Chain.wants_heldBack h] at w
        cases w
      have k := (atPort_handOut q s).others p ne
      exact QueuesOnly.trans k (ih (by rw [Chain.heldBack_queues k]; exact h))

/-- R87: the wires handed out after an event at a chain are steady. -/
theorem steady_handOutFrom (p : PortId) (s : State) : Steady s (handOutFrom p s) := by
  unfold handOutFrom
  split
  · exact (atPort_handOut p s).toSteady.trans (steady_settleWires 256 _)
  · exact steady_settleWires 256 s

/-- R87: a chain whose wire is busy, or that is not live, after an event at chain `p`. -/
theorem handOutFrom_heldBack {s : State} {p q : PortId} (h : (s.chain q).heldBack = true) :
    QueuesOnly (s.chain q) ((handOutFrom p s).chain q) := by
  unfold handOutFrom
  split
  · rename_i w
    have ne : q ≠ p := by
      rintro rfl
      rw [Chain.wants_heldBack h] at w
      cases w
    have k := (atPort_handOut p s).others q ne
    exact QueuesOnly.trans k (settleWires_heldBack 256 (by rw [Chain.heldBack_queues k]; exact h))
  · exact settleWires_heldBack 256 h

/-- R87: nothing is handed out while no chain wants its wire. -/
theorem settleWires_none {s : State} (h : ∀ p, (s.chain p).wants = false) (n : Nat) : settleWires n s = s := by
  cases n with
  | zero => rfl
  | succ n =>
    unfold settleWires
    have : (allPorts.find? fun p => Chain.wants (s.chain p)) = none := by
      rw [List.find?_eq_none]; intro p _; rw [h p]; decide
    rw [this]

theorem handOutFrom_none {s : State} (h : ∀ p, (s.chain p).wants = false) (p : PortId) : handOutFrom p s = s := by
  unfold handOutFrom
  rw [if_neg (by rw [h p]; decide)]
  exact settleWires_none h 256

/-- R87: one wire handed out, after which none wants its own. -/
theorem handOutFrom_one {s : State} {p : PortId} (w : (s.chain p).wants = true)
    (h : ∀ q, ((handOut p s).chain q).wants = false) : handOutFrom p s = handOut p s := by
  unfold handOutFrom
  rw [if_pos w]
  exact settleWires_none h 256

/-! ### Transactions, timers and requests -/

theorem atPort_takeSwap (p : PortId) (call : Call) (x : Result) (s : State) : AtPort p s (takeSwap p call x s) := by
  unfold takeSwap
  split
  · split
    · exact AtPort.refl p s
    · exact atPort_swapWire p s
  · exact AtPort.refl p s
  · exact AtPort.refl p s

theorem atPort_takeOutcome (p : PortId) (call : Call) (e : Ears) (s : State) :
    AtPort p s (takeOutcome p call e s) := by
  unfold takeOutcome
  dsimp only
  have h1 := atPort_modChain s p fun c => { c with inFlight := none }
  generalize (s.modChain p fun c => { c with inFlight := none }) = s1 at h1 ⊢
  have h2 := h1.trans (atPort_takeSwap p call (resultOf (s.chain p) e) s1)
  generalize takeSwap p call (resultOf (s.chain p) e) s1 = s2 at h2 ⊢
  split
  · split
    · exact h1.trans (atPort_probeOutcome p e s1)
    · exact h1.trans (atPort_trainOutcome p e s1)
  · exact h2.trans (atPort_rollcallOutcome p _ _ s2)
  · exact h2.trans (atPort_pollOutcome p _ _ s2)
  · split
    · exact h2.trans (atPort_configOutcome p _ _ s2)
    · exact h2.trans (atPort_opOutcome p _ s2)
  · split
    · exact h2.trans (atPort_configOutcome p _ _ s2)
    · exact h2.trans (atPort_opOutcome p _ s2)
  · exact AtPort.refl p s
  · exact AtPort.refl p s

theorem steady_answersHeard (p : PortId) (x : Bool) (a b : WireAnswer) (s : State) :
    Steady s (answersHeard p x a b s) := by
  unfold answersHeard
  dsimp only
  split
  · exact Steady.refl s
  · exact Steady.refl s
  · exact Steady.refl s
  · split
    · exact (atPort_takeOutcome p _ _ s).toSteady.trans (steady_handOutFrom p _)
    · exact Steady.refl s

theorem steady_callSent (p : PortId) (s : State) : Steady s (callSent p s) := by
  unfold callSent
  split
  · exact (atPort_modChain s p _).toSteady
  · exact (atPort_modChain s p _).toSteady.trans (steady_handOutFrom p _)
  · exact Steady.refl s

theorem steady_restExpiry (p : PortId) (s : State) : Steady s (restExpiry p s) := by
  unfold restExpiry; split
  · exact (atPort_beginTrain p s).toSteady
  · exact Steady.refl s

theorem steady_trainRetry (p : PortId) (s : State) : Steady s (trainRetry p s) := by
  unfold trainRetry; dsimp only; split
  · exact (atPort_modChain s p _).toSteady
  · exact Steady.refl s

theorem steady_probeExpiry (p : PortId) (s : State) : Steady s (probeExpiry p s) := by
  unfold probeExpiry; dsimp only; split
  · exact (atPort_setChain s p _).toSteady
  · exact Steady.refl s

theorem steady_faultRetry (p : PortId) (s : State) : Steady s (faultRetry p s) := by
  unfold faultRetry; split
  · exact (atPort_enterBringUp p _ _ s).toSteady.trans (steady_handOutFrom p _)
  · exact Steady.refl s

theorem steady_syncExpiry (p : PortId) (s : State) : Steady s (syncExpiry p s) := by
  unfold syncExpiry; dsimp only; split
  · exact (atPort_setChain s p _).toSteady.trans (steady_handOutFrom p _)
  · exact Steady.refl s

theorem steady_settleExpiry (p : PortId) (k : ModulePos) (s : State) : Steady s (settleExpiry p k s) := by
  unfold settleExpiry
  split
  · exact Steady.refl s
  · split
    · have h := atPort_changeModule p k .settled readyRecord s
      generalize changeModule p k .settled readyRecord s = s1 at h ⊢
      exact (h.trans (atPort_moduleReport p p _ s1)).toSteady.trans (steady_handOutFrom p _)
    · exact Steady.refl s

theorem steady_missesAbsent (p : PortId) (k : ModulePos) (s : State) : Steady s (missesAbsent p k s) := by
  unfold missesAbsent
  split
  · exact Steady.refl s
  · split
    · have h := atPort_changeModule p k .misses (fun x => absentRecord { x with misses := 4 }) s
      generalize changeModule p k .misses (fun x => absentRecord { x with misses := 4 }) s = s1 at h ⊢
      exact (h.trans (atPort_afterAbsence p true [k] s1)).toSteady.trans (steady_handOutFrom p _)
    · exact Steady.refl s

theorem atPort_restartAbort (p : PortId) (s : State) :
    AtPort p s ((abortWork p s).modChain p fun c => { c with faultCount := 0 }) :=
  (atPort_abortWork p s).trans (atPort_modChain _ p _)

theorem steady_chainRestart (port : Nat) (o : Coded RestartOption) (s : State) :
    Steady s (chainRestart port o s).1 := by
  unfold chainRestart
  split
  · rename_i p _ _
    have h := atPort_restartAbort p s
    dsimp only
    generalize ((abortWork p s).modChain p fun c => { c with faultCount := 0 }) = s1 at h ⊢
    exact (h.trans (atPort_enterBringUp p .request [] s1)).toSteady.trans (steady_handOutFrom p _)
  · rename_i p _ _
    split
    · exact Steady.refl s
    · have h := atPort_restartAbort p s
      dsimp only
      generalize ((abortWork p s).modChain p fun c => { c with faultCount := 0 }) = s1 at h ⊢
      exact (h.trans (atPort_enterOff p s1)).toSteady.trans (steady_handOutFrom p _)
  · exact Steady.refl s

theorem steady_chainSet (port : Nat) (f : ChainSetFields) (s : State) : Steady s (chainSet port f s).1 := by
  unfold chainSet
  split
  · exact Steady.refl s
  · split
    · exact Steady.refl s
    · exact (atPort_setChain s _ _).toSteady

theorem steady_pageRequest (src : Source) (port pos page : Nat) (b : Option PageBytes) (i : Fin 8) (s : State) :
    Steady s (pageRequest src port pos page b i s).1 := by
  unfold pageRequest
  split
  · dsimp only
    split
    · exact Steady.refl s
    · split
      · exact Steady.refl s
      · exact (atPort_setChain s _ _).toSteady.trans (steady_handOutFrom _ _)
  · exact Steady.refl s

end Sys2Proof.Machine
end

