-- ==== Sys2Proof/Laws/Claims.lean ====
section
/-! SUPPORT. The claim table (Chapter 9): what the end of a claim leaves in it, and that everything else it does is quiet. -/

namespace Sys2Proof.Machine

open Sys2Proof.Safety

theorem claim_of_quiet {s t : State} (h : Quiet s t) (r : Resource) : t.claim r = s.claim r := by
  cases r
  · unfold State.claim; simp only [h.motorClaims]
  · unfold State.claim; simp only [h.voiceClaims]

theorem owner_of_quiet {s t : State} (h : Quiet s t) (r : Resource) : t.owner r = s.owner r := by
  unfold State.owner; rw [claim_of_quiet h]

theorem mem_allResources (r : Resource) : r ∈ allResources := by
  cases r with
  | motor m => fin_cases m <;> simp [allResources, allMotors, allVoices]
  | voice v => fin_cases v <;> simp [allResources, allMotors, allVoices]

theorem nodup_allResources : allResources.Nodup := by decide

theorem mem_inOrder (set : List Resource) (r : Resource) : r ∈ inOrder set ↔ r ∈ set := by
  simp [inOrder, mem_allResources]

theorem nodup_inOrder (set : List Resource) : (inOrder set).Nodup := nodup_allResources.filter _

/-- The owner records of the same state set on both sides of quiet work. -/
theorem quiet_withClaims {a b : State} (h : Quiet a b) (c : State) : Quiet (withClaims a c) (withClaims b c) where
  time := h.time
  linkUp := h.linkUp
  resetTaken := h.resetTaken
  motorClaims := rfl
  voiceClaims := rfl
  encoder := h.encoder
  pwm := h.pwm
  aout := h.aout
  store := h.store
  windows := h.windows
  cues := h.cues
  master := h.master
  subs := h.subs
  pending := h.pending
  budget := h.budget
  grants := h.grants
  reactions := h.reactions
  clips := h.clips
  watchTable := h.watchTable
  slots := fun src => by cases src <;> [exact h.slots .program; exact h.slots .tablet]
  rx := fun src => by cases src <;> [exact h.rx .program; exact h.rx .tablet]
  tx := fun src => by cases src <;> [exact h.tx .program; exact h.tx .tablet]
  readyIn := fun src => by cases src <;> [exact h.readyIn .program; exact h.readyIn .tablet]
  begun := fun src => by cases src <;> [exact h.begun .program; exact h.begun .tablet]
  draws := fun src => by cases src <;> [exact h.draws .program; exact h.draws .tablet]
  waiting := fun src => by cases src <;> [exact h.waiting .program; exact h.waiting .tablet]
  notices := fun src => by cases src <;> [exact h.notices .program; exact h.notices .tablet]
  chains := h.chains
  links := fun src => by cases src <;> [exact h.links .program; exact h.links .tablet]
  allChains := h.allChains
  channels := h.channels
  copy := h.copy
  watches := h.watches

theorem withClaims_self (s : State) : withClaims s s = s := rfl

theorem withClaims_setClaim (t s : State) (r : Resource) (c : Claim) :
    withClaims (t.setClaim r c) s = withClaims t s := by cases r <;> rfl

theorem withClaims_withClaims (t u s : State) : withClaims (withClaims t u) s = withClaims t s := rfl

theorem withClaims_of_quiet {s t : State} (h : Quiet s t) : withClaims t s = t := by
  unfold withClaims; rw [← h.motorClaims, ← h.voiceClaims]

/-- Quiet work, but for claims, one after the other. -/
theorem quiet_withClaims_trans {a b c : State} (h : Quiet a (withClaims b a)) (k : Quiet b (withClaims c b)) :
    Quiet a (withClaims c a) := h.trans (quiet_withClaims k a)

/-- R161 step 1. -/
theorem quiet_claimStop (r : Resource) (reason : ClaimEndReason) (s : State) : Quiet s (claimStop r reason s) := by
  cases r with
  | motor m => exact quiet_afterEvents (quiet_stopAction m _ _ s)
  | voice v => exact quiet_fadeStop quiet_react v _ s

/-- R161: the record that takes the place of the ended claim; the others stay. -/
theorem claim_endClaim (r q : Resource) (reason : ClaimEndReason) (new : Claim) (s : State) :
    (endClaim r reason new s).claim q = if r = q then new else s.claim q := by
  unfold endClaim
  dsimp only
  rw [claim_of_quiet (quiet_react _ _), claim_of_quiet (quiet_placeBoth _ _), State.claim_setClaim,
    claim_of_quiet (quiet_claimStop r reason s)]

/-- R161: beside the owner record, the end of a claim is quiet. -/
theorem quiet_endClaim (r : Resource) (reason : ClaimEndReason) (new : Claim) (s : State) :
    Quiet s (withClaims (endClaim r reason new s) s) := by
  unfold endClaim
  dsimp only
  have h := quiet_claimStop r reason s
  generalize claimStop r reason s = u at h ⊢
  have k := (quiet_placeBoth (u.setClaim r new)
    (.claimEnd r reason (s.owner r) new.owner (u.setClaim r new).time)).trans (quiet_react (.claimEnd r reason) _)
  have k2 := quiet_withClaims k s
  rw [withClaims_setClaim, withClaims_of_quiet h] at k2
  exact h.trans k2

end Sys2Proof.Machine
end

