-- ==== Sys2Proof/Laws/Motion.lean ====
section
/-! SUPPORT. What the motion controller's shared operations do, each said once: a segment that starts and its direction
(R23, R24), the blend test (R30), the entry to a state at rest (R7), the ends of segments with their notice (R28, R29,
R40), and a stop action (R9). -/

namespace Sys2Proof.Machine

open Sys2Proof.Safety

/-! ### Starts and the blend test -/

/-- R23: the end condition of the segment names a channel that is UNMAPPED or LOST. -/
theorem conditionGone_iff (s : State) (seg : Segment) : conditionGone s seg = true ↔ Gone s seg := by
  unfold conditionGone Gone channelGone
  cases seg.condition with
  | none => simp
  | stall => simp
  | channel ch idx side x =>
    simp only [Bool.or_eq_true, decide_eq_true_eq]
    constructor
    · intro h; exact ⟨ch, idx, side, x, rfl, h⟩
    · rintro ⟨_, _, _, _, e, h⟩
      cases e; exact h

/-- R23, R24: the run-time fields of a segment that becomes active. -/
theorem activate_handover (seg : Segment) (ref : Word) (way : Option Direction) :
    activate seg ref (carriedDirection seg way) = startedAs seg ref way := by
  unfold activate startedAs carriedDirection targetOf directionOf
  cases seg.kind <;> rfl

/-- R23: the direction of a number is that of its sign. -/
theorem directionOf_getD (x : Int) :
    (directionOf x).getD .forward = if x < 0 then Direction.backward else .forward := by
  unfold directionOf
  by_cases p : 0 < x
  · rw [if_pos p, if_neg (by omega)]; rfl
  · rw [if_neg p]
    split <;> rfl

/-- R23: the run-time fields of a segment that starts. -/
theorem activate_start (seg : Segment) (ref : Word) :
    activate seg ref (startDirection seg ref) = startedAs seg ref (firstDirection seg ref) := by
  unfold activate startedAs startDirection targetOf firstDirection headDirection wayFrom
  cases k : seg.kind
  · rfl
  · simp only [directionOf_getD]
  · simp only [directionOf_getD]
  · rfl

/-- R30, R32: the blend test passes when the head goes the way of the active segment. -/
theorem blendTest_iff (mo : Motor) (a : Active) : blendTest mo a = true ↔ HeadFollows mo a := by
  unfold blendTest HeadFollows
  cases q : mo.queue with
  | nil => simp
  | cons h rest =>
    have way : ∀ d, headDirection h mo.refPos = some d ↔
        (d = .forward ∧ 0 < wayFrom h mo.refPos) ∨ (d = .backward ∧ wayFrom h mo.refPos < 0) := by
      intro d
      have sign : ∀ x : Int, directionOf x = some d ↔ (d = .forward ∧ 0 < x) ∨ (d = .backward ∧ x < 0) := by
        intro x
        unfold directionOf
        cases d <;> split <;> simp_all <;> omega
      unfold headDirection wayFrom
      cases h.kind <;> simp [sign]
    cases d : a.direction with
    | none => simp
    | some way' => simp [way way']

/-! ### What places a notice is not changed by motion -/

/-- The same links, LINK_UP, part time and owners: a notice placed in one is placed in the other. -/
structure SameLinks (s t : State) : Prop where
  program : t.program = s.program
  tablet : t.tablet = s.tablet
  linkUp : t.linkUp = s.linkUp
  time : t.time = s.time
  claims : t.motorClaims = s.motorClaims

theorem SameLinks.link {s t : State} (h : SameLinks s t) (src : Source) : t.link src = s.link src := by
  cases src
  · exact h.program
  · exact h.tablet

theorem SameLinks.link_place {s t : State} (h : SameLinks s t) (a : Source) (n : NoticeBody) (src : Source) :
    (t.place a n).link src = (s.place a n).link src := by
  rw [State.link_place, State.link_place, h.linkUp, h.link]

theorem SameLinks.ownerLink {s t : State} (h : SameLinks s t) (m : MotorId) :
    t.ownerLink (.motor m) = s.ownerLink (.motor m) := by
  unfold State.ownerLink State.owner State.claim
  simp only [h.claims]

theorem sameLinks_setMotor (s : State) (m : MotorId) (x : Motor) : SameLinks s (s.setMotor m x) :=
  ⟨rfl, rfl, rfl, rfl, rfl⟩

theorem SameLinks.trans {a b c : State} (h : SameLinks a b) (k : SameLinks b c) : SameLinks a c :=
  ⟨k.program.trans h.program, k.tablet.trans h.tablet, k.linkUp.trans h.linkUp, k.time.trans h.time,
    k.claims.trans h.claims⟩

theorem State.motor_place (s : State) (a : Source) (n : NoticeBody) (m : MotorId) :
    (s.place a n).motor m = s.motor m := by
  unfold State.motor
  simp only [State.place_motors]

/-! ### State entry and stop actions -/

theorem rest_eq_resting {st : MotorState} (h : st ≠ .fault) (mo : Motor) : Motor.rest st mo = resting st mo := by
  unfold Motor.rest resting
  rw [if_neg h]

theorem sameLinks_enterRest (m : MotorId) (st : MotorState) (s : State) : SameLinks s (enterRest m st s) := by
  unfold enterRest
  split
  · exact ⟨rfl, rfl, rfl, rfl, rfl⟩
  · exact ⟨rfl, rfl, rfl, rfl, rfl⟩

/-- R7, R63: entry to a state at rest that the motor is not in. -/
theorem enterRest_of_ne {m : MotorId} {st : MotorState} {s : State} (h : (s.motor m).state ≠ st) :
    enterRest m st s = (s.setMotor m (Motor.rest st (s.motor m))).releaseSupply (.motor m) := by
  unfold enterRest
  rw [if_neg h]; rfl

theorem sameLinks_applyStop (m : MotorId) (a : StopAction) (s : State) : SameLinks s (applyStop m a s) := by
  cases a
  · exact sameLinks_enterRest m .idle s
  · exact sameLinks_enterRest m .braked s
  · exact sameLinks_setMotor s m _

/-- R9, R40: what a stop action places: SEGMENT_END of an active segment on the owner's link. -/
theorem link_stopAction {m : MotorId} {reason : EndReason} {action : StopAction} {s : State}
    (h : (s.motor m).state ≠ .fault) (src : Source) :
    ((stopAction m reason action s).1).link src =
      (match (s.motor m).active with
       | some x => s.place (s.ownerLink (.motor m))
           (.segmentEnd m x.seg.tag reason false (s.motor m).position (s.motor m).queue.length s.time)
       | none => s).link src := by
  have same := (sameLinks_setMotor s m (Motor.cleared (s.motor m))).trans (sameLinks_applyStop m action _)
  unfold stopAction
  simp only [if_neg h]
  cases (s.motor m).active with
  | none => exact same.link src
  | some a =>
    unfold endNotice
    dsimp only
    have o := same.ownerLink m
    have t := same.time
    unfold State.modMotor
    rw [o, t]
    exact same.link_place _ _ src

/-! ### Segment ends -/

theorem sameLinks_applyEndAction (m : MotorId) (e : EndAction) (ref : HoldRef) (s : State) :
    SameLinks s (applyEndAction m e ref s) := by
  cases e
  · exact sameLinks_enterRest m .idle s
  · exact sameLinks_enterRest m .braked s
  · exact sameLinks_setMotor s m _
  · exact sameLinks_setMotor s m _

/-- R28, R40: an end by DONE, CONDITION or STALL_OK: its event and its notice. -/
theorem endByAction_active {m : MotorId} {s : State} {a : Active} (h : (s.motor m).active = some a)
    (reason : EndReason) (ref : HoldRef) (pos : Word) :
    (endByAction m reason ref pos s).2 = [.segmentEnd m a.seg.tag reason false] ∧
    (∀ k, k ≠ m → (endByAction m reason ref pos s).1.motor k = s.motor k) ∧
    (∀ src, ((endByAction m reason ref pos s).1).link src =
      (s.place (s.ownerLink (.motor m)) (.segmentEnd m a.seg.tag reason false pos 0 s.time)).link src) ∧
    (endByAction m reason ref pos s).1.motor m =
      (applyEndAction m a.seg.endAction ref (s.setMotor m { s.motor m with active := none })).motor m ∧
    (endByAction m reason ref pos s).1.governor =
      (applyEndAction m a.seg.endAction ref (s.setMotor m { s.motor m with active := none })).governor := by
  have same := (sameLinks_setMotor s m { s.motor m with active := none }).trans
    (sameLinks_applyEndAction m a.seg.endAction ref _)
  have other : ∀ k, k ≠ m →
      (applyEndAction m a.seg.endAction ref (s.setMotor m { s.motor m with active := none })).motor k = s.motor k := by
    intro k n
    have e : (s.setMotor m { s.motor m with active := none }).motor k = s.motor k := by
      rw [State.motor_setMotor, if_neg n.symm]
    cases a.seg.endAction with
    | coast =>
      unfold applyEndAction enterRest State.modMotor
      dsimp only
      split
      · exact e
      · exact ((State.motor_setMotor _ m k _).trans (if_neg n.symm)).trans e
    | brake =>
      unfold applyEndAction enterRest State.modMotor
      dsimp only
      split
      · exact e
      · exact ((State.motor_setMotor _ m k _).trans (if_neg n.symm)).trans e
    | hold => exact ((State.motor_setMotor _ m k _).trans (if_neg n.symm)).trans e
    | blend => exact ((State.motor_setMotor _ m k _).trans (if_neg n.symm)).trans e
  unfold endByAction
  rw [h]
  dsimp only
  unfold endNotice State.modMotor
  refine ⟨rfl, fun k n => ?_, fun src => ?_, ?_, ?_⟩
  · rw [State.motor_place]; exact other k n
  · rw [same.ownerLink m, same.time]; exact same.link_place _ _ src
  · rw [State.motor_place]
  · rw [State.place_governor]

/-- R29, Table 2-4: the end action of a RUNNING motor's segment at a position. -/
theorem motor_applyEndAction {m : MotorId} {s : State} (h : (s.motor m).state = .running) (e : EndAction) (pos : Word) :
    (applyEndAction m e (.here pos) (s.setMotor m { s.motor m with active := none })).motor m =
      endedBy e pos (s.motor m) := by
  have self : (s.setMotor m { s.motor m with active := none }).motor m = { s.motor m with active := none } := by
    rw [State.motor_setMotor, if_pos rfl]
  cases e with
  | coast =>
    unfold applyEndAction
    dsimp only
    rw [enterRest_of_ne (by rw [self]; simp [h]), self]
    exact ((State.motor_setMotor _ m m _).trans (if_pos rfl)).trans (rest_eq_resting (by decide) _)
  | brake =>
    unfold applyEndAction
    dsimp only
    rw [enterRest_of_ne (by rw [self]; simp [h]), self]
    exact ((State.motor_setMotor _ m m _).trans (if_pos rfl)).trans (rest_eq_resting (by decide) _)
  | hold =>
    unfold applyEndAction State.modMotor
    dsimp only
    rw [State.motor_setMotor, if_pos rfl, self]; rfl
  | blend =>
    unfold applyEndAction State.modMotor
    dsimp only
    rw [State.motor_setMotor, if_pos rfl, self]; rfl

/-- R28, R40, Table 2-3: an end by force of a segment: the motor as the state forced leaves it, its grant released, its
event and its notice. -/
theorem endByForce_active {m : MotorId} {s : State} {a : Active} {st : MotorState} (h : (s.motor m).active = some a)
    (n : (s.motor m).state ≠ st) (f : st ≠ .fault) (reason : EndReason) (pos : Word) :
    (endByForce m reason st pos s).2 = [.segmentEnd m a.seg.tag reason false] ∧
    (endByForce m reason st pos s).1.motor m = resting st { s.motor m with active := none, queue := [] } ∧
    (endByForce m reason st pos s).1.governor = s.governor.release (.motor m) ∧
    (∀ k, k ≠ m → (endByForce m reason st pos s).1.motor k = s.motor k) ∧
    (∀ src, ((endByForce m reason st pos s).1).link src =
      (s.place (s.ownerLink (.motor m))
        (.segmentEnd m a.seg.tag reason false pos (s.motor m).queue.length s.time)).link src) := by
  have same := (sameLinks_setMotor s m (Motor.cleared (s.motor m))).trans (sameLinks_enterRest m st _)
  have self : (s.setMotor m (Motor.cleared (s.motor m))).motor m = Motor.cleared (s.motor m) := by
    rw [State.motor_setMotor, if_pos rfl]
  have e := enterRest_of_ne (m := m) (st := st) (s := s.setMotor m (Motor.cleared (s.motor m)))
    (by rw [self]; exact n)
  rw [self] at e
  unfold endByForce
  rw [h]
  dsimp only
  unfold endNotice State.modMotor
  refine ⟨rfl, ?_, ?_, fun k o => ?_, fun src => ?_⟩
  · rw [State.motor_place, e]
    exact ((State.motor_setMotor _ m m _).trans (if_pos rfl)).trans (rest_eq_resting f _)
  · rw [State.place_governor, e]; rfl
  · rw [State.motor_place, e]
    exact ((State.motor_setMotor _ m k _).trans (if_neg o.symm)).trans
      ((State.motor_setMotor _ m k _).trans (if_neg o.symm))
  · rw [same.ownerLink m, same.time]; exact same.link_place _ _ src

/-! ### Handovers (R24, R31) -/

/-- R24, R31: the state of a handover once its notice is placed, before the new segment's condition is looked at. -/
def handedOver (m : MotorId) (a : Active) (h : Segment) (rest : List Segment) (s : State) : State :=
  (s.setMotor m
    { s.motor m with active := some (startedAs h (s.motor m).refPos a.direction), queue := rest }).place
    (s.ownerLink (.motor m)) (.segmentEnd m a.seg.tag .done true (s.motor m).sampled 0 s.time)

theorem handover_cons {m : MotorId} {s : State} {h : Segment} {rest : List Segment}
    (q : (s.motor m).queue = h :: rest) (a : Active) :
    handover m a s =
      ((endIfGone m (handedOver m a h rest s)).1,
        .segmentEnd m a.seg.tag .done true :: (endIfGone m (handedOver m a h rest s)).2) := by
  unfold handover
  dsimp only
  rw [q]
  dsimp only
  rw [activate_handover]
  rfl

theorem motor_handedOver (m : MotorId) (a : Active) (h : Segment) (rest : List Segment) (s : State) :
    (handedOver m a h rest s).motor m =
      { s.motor m with active := some (startedAs h (s.motor m).refPos a.direction), queue := rest } := by
  unfold handedOver
  rw [State.motor_place, State.motor_setMotor, if_pos rfl]

theorem conditionGone_handedOver (m : MotorId) (a : Active) (h : Segment) (rest : List Segment) (s : State)
    (seg : Segment) : conditionGone (handedOver m a h rest s) seg = conditionGone s seg := by
  unfold conditionGone State.channel
  rw [show (handedOver m a h rest s).channels = s.channels from State.place_channels _ _ _]

/-- R24, R31: a handover to a head whose condition still has its channel. -/
theorem handover_stays {m : MotorId} {s : State} {h : Segment} {rest : List Segment}
    (q : (s.motor m).queue = h :: rest) (a : Active) (here : ¬Gone s h) :
    handover m a s = (handedOver m a h rest s, [.segmentEnd m a.seg.tag .done true]) := by
  rw [← conditionGone_iff] at here
  have e : endIfGone m (handedOver m a h rest s) = (handedOver m a h rest s, []) := by
    unfold endIfGone
    rw [motor_handedOver]
    dsimp only
    rw [conditionGone_handedOver,
      if_neg (show ¬conditionGone s (startedAs h (s.motor m).refPos a.direction).seg = true from here)]
  rw [handover_cons q, e]

/-- R24, R34: a handover to a head whose condition names a channel that is UNMAPPED or LOST ends it at once. -/
theorem handover_gone {m : MotorId} {s : State} {h : Segment} {rest : List Segment} (q : (s.motor m).queue = h :: rest)
    (a : Active) (gone : Gone s h) (run : (s.motor m).state ≠ .braked) :
    (handover m a s).2 = [.segmentEnd m a.seg.tag .done true, .segmentEnd m h.tag .sensorLost false] ∧
    (handover m a s).1.motor m = resting .braked { s.motor m with active := none, queue := [] } ∧
    (handover m a s).1.governor = s.governor.release (.motor m) ∧
    (∀ k, k ≠ m → (handover m a s).1.motor k = s.motor k) ∧
    (∀ src, ((handover m a s).1).link src =
      ((s.place (s.ownerLink (.motor m)) (.segmentEnd m a.seg.tag .done true (s.motor m).sampled 0 s.time)).place
        (s.ownerLink (.motor m))
        (.segmentEnd m h.tag .sensorLost false (s.motor m).sampled rest.length s.time)).link src) := by
  have c : conditionGone s h = true := (conditionGone_iff s h).2 gone
  let next := startedAs h (s.motor m).refPos a.direction
  let u := handedOver m a h rest s
  have um : u.motor m = { s.motor m with active := some next, queue := rest } := motor_handedOver m a h rest s
  have g : endIfGone m u = endByForce m .sensorLost .braked (u.motor m).sampled u := by
    unfold endIfGone
    rw [um]
    dsimp only
    rw [conditionGone_handedOver, if_pos (show conditionGone s next.seg = true from c)]
  obtain ⟨f1, f2, f3, f4, f5⟩ := endByForce_active (st := .braked) (show (u.motor m).active = some next by rw [um])
    (by rw [um]; exact run) (by decide) .sensorLost (u.motor m).sampled
  have same : SameLinks (s.place (s.ownerLink (.motor m))
      (.segmentEnd m a.seg.tag .done true (s.motor m).sampled 0 s.time)) u := by
    have l := (sameLinks_setMotor s m { s.motor m with active := some next, queue := rest }).link_place
      (s.ownerLink (.motor m)) (.segmentEnd m a.seg.tag .done true (s.motor m).sampled 0 s.time)
    refine ⟨l .program, l .tablet, ?_, ?_, ?_⟩
    · rw [show u.linkUp = s.linkUp from State.place_linkUp _ _ _, State.place_linkUp]
    · rw [show u.time = s.time from State.place_time _ _ _, State.place_time]
    · rw [show u.motorClaims = s.motorClaims from State.place_motorClaims _ _ _, State.place_motorClaims]
  have own : u.ownerLink (.motor m) = s.ownerLink (.motor m) := by
    unfold State.ownerLink State.owner State.claim
    simp only [show u.motorClaims = s.motorClaims from State.place_motorClaims _ _ _]
  rw [handover_cons q, show endIfGone m (handedOver m a h rest s) = _ from g]
  refine ⟨?_, ?_, ?_, fun k o => ?_, fun src => ?_⟩
  · dsimp only; rw [f1]; rfl
  · dsimp only; rw [f2, um]
  · dsimp only; rw [f3, show u.governor = s.governor from State.place_governor _ _ _]
  · dsimp only
    rw [f4 k o]
    exact (State.motor_place _ _ _ k).trans ((State.motor_setMotor _ m k _).trans (if_neg o.symm))
  · dsimp only
    rw [f5 src, own, um, show u.time = s.time from State.place_time _ _ _]
    exact same.link_place _ _ src

end Sys2Proof.Machine
end

