-- ==== Sys2Proof/WellFormed.lean ====
section
/-! DEFINITION. Which commands can reach the part: the numbers of a request fit the frame fields that can carry
them (a number that names something fits a byte; other numbers fit 32 bits, or the width Table 2-1, Table 11-4 and
R11 give), and an UNKNOWN_KIND command carries a KIND that Table 11-2 does not list. -/

namespace Sys2Proof

namespace Wf

def byte (n : Nat) : Bool := n < 256
def u16 (n : Nat) : Bool := n < 65536
def u32 (n : Nat) : Bool := n < 4294967296
def i16 (x : Int) : Bool := -32768 ≤ x && x ≤ 32767
def i32 (x : Int) : Bool := -2147483648 ≤ x && x ≤ 2147483647

/-- A number whose signedness no rule gives: it fits 32 bits either way. -/
def wide (x : Int) : Bool := -2147483648 ≤ x && x ≤ 4294967295

def optAll (p : α → Bool) : Option α → Bool
  | none => true
  | some a => p a

def rawEntry : RawEntry → Bool
  | .number n => byte n
  | .any => true

/-- Table 11-4: the widths of a segment record's fields. -/
def rawCondition : RawCondition → Bool
  | .none => true
  | .channel ch index _ threshold => byte ch && byte index && i32 threshold
  | .stall => true
  | .outside => true

def segment (r : RawSegment) : Bool :=
  optAll i32 r.target && i16 r.speed && u16 r.accel && u16 r.decel && optAll u32 r.duration &&
    rawCondition r.condition

/-- R11: the gains are unsigned 16-bit numbers. -/
def motorSet (f : MotorSetFields) : Bool :=
  let gain := optAll (fun x : Int => 0 ≤ x && x ≤ 65535)
  let num := optAll wide
  num f.dutyLimit && gain f.kp && gain f.kv && gain f.ki && gain f.kf && num f.stallCurrent && num f.stallSpeed &&
    num f.stallTime && num f.tripCurrent

def chainSet (f : ChainSetFields) : Bool :=
  let num := optAll wide
  num f.syncPeriod && num f.threshold && num f.divider1 && num f.divider2 && num f.divider3 && num f.divider4

/-- R71: what an answer can carry: bytes for numbers, up to 8 values. -/
def answer : Answer → Bool
  | .training => true
  | .rollcall pos _ _ valueCount settle _ => byte pos && byte valueCount && u16 settle
  | .pageAck pos page => byte pos && byte page
  | .pageAnswer pos page _ => byte pos && byte page
  | .sample pos _ values _ => byte pos && values.length ≤ 8

def wireAnswer : WireAnswer → Bool
  | .silent => true
  | .complete _ content => answer content

def mapFields (f : MapFields) : Bool :=
  byte f.channel && byte f.primaryPort && byte f.primaryPos && optAll (fun m => byte m.1 && byte m.2) f.spare &&
    i16 f.num && wide f.den && wide f.offset

def watchFields (f : WatchFields) : Bool :=
  rawEntry f.entry && byte f.channel && byte f.index && wide f.threshold && wide f.lo && wide f.hi && wide f.delta &&
    wide f.hysteresis

def rawTrigger : RawTrigger → Bool
  | .watch n => byte n
  | .segmentEnd m _ => byte m
  | .voiceEnd v => byte v
  | .claimEnd r => byte r
  | .chainState p _ => byte p
  | .outside => true

def rawAction : RawAction → Bool
  | .halt m _ => byte m
  | .segment m seg _ => byte m && segment seg
  | .play v cue => byte v && byte cue
  | .stop v _ => byte v
  | .notify _ => true
  | .outside => true

def reactFields (f : ReactFields) : Bool :=
  rawEntry f.entry && rawTrigger f.trigger && rawAction f.action

def readTarget : ReadTarget → Bool
  | .reaction n => byte n
  | .watch n => byte n
  | .outside => true

def windowFields (f : WindowFields) : Bool := byte f.window && u32 f.base && u32 f.size

def clipFields (f : ClipFields) : Bool := rawEntry f.entry && u32 f.base && u32 f.length

/-- Table 8-3: repeat is 0 to 255. -/
def cueBody : RawCueBody → Bool
  | .clip clip start length rep gain => byte clip && u32 start && u32 length && byte rep && wide gain
  | .tone frequency duration _ gain => wide frequency && wide duration && wide gain
  | .silence duration => wide duration
  | .outside => true

def rawNext : RawNext → Bool
  | .entry n => byte n
  | .finish => true

def cueFields (f : CueFields) : Bool := rawEntry f.entry && cueBody f.body && rawNext f.next

def rawItem : RawItem → Bool
  | .channel ch index => byte ch && byte index
  | .motorPos m => byte m
  | .motorSpeed m => byte m
  | .motorDuty m => byte m
  | .motorState m => byte m
  | .voiceState v => byte v
  | .budgetUsed => true
  | .chainState p => byte p
  | .outside => true

def subscribeFields (f : SubscribeFields) : Bool :=
  rawItem f.item && u32 f.period && u32 f.latency && byte f.priority && u32 f.delta

/-- The request kind codes of Table 11-2. -/
def requestCodes : List Nat :=
  [0x01, 0x02, 0x08, 0x09, 0x0A, 0x0B, 0x10, 0x11, 0x12, 0x13, 0x14, 0x15, 0x18, 0x19] ++
  [0x20, 0x21, 0x22, 0x23, 0x24, 0x25, 0x28, 0x29, 0x2A, 0x30, 0x31, 0x32, 0x33, 0x34] ++
  [0x38, 0x39, 0x3A, 0x3B, 0x3C, 0x3D, 0x3E, 0x3F, 0x40, 0x41, 0x42, 0x48, 0x49]

end Wf

/-- The command can reach the part. A STORE_WRITE's data may be of a length that R138 answers BAD_LENGTH, up to
what a frame of 250 body bytes carries beside a 32-bit offset. -/
def Instr.wf : Instr → Bool
  | .powerOn => true
  | .softReset => true
  | .linkUpFall => true
  | .linkUpRise => true
  | .readyInChange _ _ => true
  | .frameByteTimeout _ => true
  | .unknownKind _ _ kind => !Wf.requestCodes.contains kind.toNat
  | .frameStart _ => true
  | .frameSent _ => true
  | .ident _ _ => true
  | .reset _ _ => true
  | .claim _ _ f => Wf.u16 f.lease
  | .release _ _ _ => true
  | .renew _ _ _ => true
  | .take _ _ f => Wf.u16 f.lease
  | .leaseExpiry _ => true
  | .motorSet _ _ motor f => Wf.byte motor && Wf.motorSet f
  | .motorRead _ _ motor => Wf.byte motor
  | .zero _ _ motor _ => Wf.byte motor
  | .clearFault _ _ motor => Wf.byte motor
  | .seg _ _ motor r => Wf.byte motor && Wf.segment r
  | .halt _ _ motor _ => Wf.byte motor
  | .encoderStep _ _ _ => true
  | .controlTick _ isense => Wf.i32 isense
  | .trip _ => true
  | .durationExpiry _ => true
  | .stall _ => true
  | .budgetSet _ _ budget => Wf.wide budget
  | .budgetRead _ _ => true
  | .chainRestart _ _ port _ => Wf.byte port
  | .chainSet _ _ port f => Wf.byte port && Wf.chainSet f
  | .chainRead _ _ port => Wf.byte port
  | .moduleRead _ _ port pos => Wf.byte port && Wf.byte pos
  | .modulePageWrite _ _ port pos page _ => Wf.byte port && Wf.byte pos && Wf.byte page
  | .modulePageRead _ _ port pos page => Wf.byte port && Wf.byte pos && Wf.byte page
  | .resetRestExpiry _ => true
  | .trainRetryTimer _ => true
  | .emptyProbeTimer _ => true
  | .faultRetryTimer _ => true
  | .syncTimerExpiry _ => true
  | .callSent _ => true
  | .transactionEnd _ a b => Wf.wireAnswer a && Wf.wireAnswer b
  | .answerTimeout _ a b => Wf.wireAnswer a && Wf.wireAnswer b
  | .missesAbsent _ _ => true
  | .settleExpiry _ _ => true
  | .staleDeadline _ => true
  | .mapSet _ _ f => Wf.mapFields f
  | .mapClear _ _ channel => Wf.byte channel
  | .channelRead _ _ channel => Wf.byte channel
  | .watchSet _ _ f => Wf.watchFields f
  | .watchClear _ _ entry => Wf.byte entry
  | .reactSet _ _ f => Wf.reactFields f
  | .reactClear _ _ entry => Wf.byte entry
  | .reactRead _ _ target => Wf.readTarget target
  | .windowSet _ _ f => Wf.windowFields f
  | .storeWrite _ _ offset bytes => Wf.u32 offset && bytes.length ≤ 246
  | .storeRead _ _ offset count => Wf.u32 offset && Wf.byte count
  | .clipDefine _ _ f => Wf.clipFields f
  | .clipRemove _ _ entry => Wf.byte entry
  | .cueSet _ _ f => Wf.cueFields f
  | .cueClear _ _ entry => Wf.byte entry
  | .play _ _ voice cue => Wf.byte voice && Wf.byte cue
  | .stop _ _ voice _ => Wf.byte voice
  | .voiceGain _ _ voice level => Wf.byte voice && Wf.wide level
  | .masterSet _ _ master => Wf.wide master
  | .outputSample => true
  | .subscribe _ _ f => Wf.subscribeFields f
  | .unsubscribe _ _ id => Wf.byte id
  | .periodExpiry _ => true
  | .byteReceived _ _ => true
  | .carrierPeriod => true

end Sys2Proof
end

