-- ==== Sys2Proof/Laws/PerInstr.lean ====
section
/-! SUPPORT. One lemma per command of the family `RequestRow`: what the kind of a request row is worth on the line (Table
11-2, R178, R179). -/

namespace Sys2Proof.Laws.RequestRow

open Sys2Proof.Machine Sys2Proof.Safety

/-- The kind of a request row: its code is one of Table 11-2, it is read back as the kind, its body can be as short as the
table says, and the kind of its reply is no request kind, no notice kind (E0h to E9h), no telemetry kind (F0h) and not
FFh. An event row has no kind. -/
def Statement (i : Instr) : Prop :=
  ∀ src tag k, requestOf i = some (src, tag, k) →
    Wf.requestCodes.contains (RequestKind.code k).toNat = true ∧ kindOf (RequestKind.code k) = some k ∧
      (bodyLength k).1 ≤ (bodyLength k).2 ∧ kindOf (RequestKind.code k + 0x80#8) = none ∧
      (RequestKind.code k + 0x80#8).toNat < 0xE0

/-- Every kind of Table 11-2. -/
theorem every (k : RequestKind) :
    Wf.requestCodes.contains (RequestKind.code k).toNat = true ∧ kindOf (RequestKind.code k) = some k ∧
      (bodyLength k).1 ≤ (bodyLength k).2 ∧ kindOf (RequestKind.code k + 0x80#8) = none ∧
      (RequestKind.code k + 0x80#8).toNat < 0xE0 := by
  cases k <;> decide

theorem powerOn : Statement .powerOn :=
  fun _ _ k _ => every k
theorem softReset : Statement .softReset :=
  fun _ _ k _ => every k
theorem linkUpFall : Statement .linkUpFall :=
  fun _ _ k _ => every k
theorem linkUpRise : Statement .linkUpRise :=
  fun _ _ k _ => every k
theorem readyInChange (link : Source) (high : Bool) : Statement (.readyInChange link high) :=
  fun _ _ k _ => every k
theorem frameByteTimeout (link : Source) : Statement (.frameByteTimeout link) :=
  fun _ _ k _ => every k
theorem unknownKind (src : Source) (tag kind : Byte) : Statement (.unknownKind src tag kind) :=
  fun _ _ k _ => every k
theorem frameStart (link : Source) : Statement (.frameStart link) :=
  fun _ _ k _ => every k
theorem frameSent (link : Source) : Statement (.frameSent link) :=
  fun _ _ k _ => every k
theorem ident (src : Source) (tag : Byte) : Statement (.ident src tag) :=
  fun _ _ k _ => every k
theorem reset (src : Source) (tag : Byte) : Statement (.reset src tag) :=
  fun _ _ k _ => every k
theorem claim (src : Source) (tag : Byte) (f : ClaimFields) : Statement (.claim src tag f) :=
  fun _ _ k _ => every k
theorem release (src : Source) (tag : Byte) (set : List Resource) : Statement (.release src tag set) :=
  fun _ _ k _ => every k
theorem renew (src : Source) (tag : Byte) (set : List Resource) : Statement (.renew src tag set) :=
  fun _ _ k _ => every k
theorem take (src : Source) (tag : Byte) (f : ClaimFields) : Statement (.take src tag f) :=
  fun _ _ k _ => every k
theorem leaseExpiry (r : Resource) : Statement (.leaseExpiry r) :=
  fun _ _ k _ => every k
theorem motorSet (src : Source) (tag : Byte) (motor : Nat) (f : MotorSetFields) : Statement (.motorSet src tag motor f) :=
  fun _ _ k _ => every k
theorem motorRead (src : Source) (tag : Byte) (motor : Nat) : Statement (.motorRead src tag motor) :=
  fun _ _ k _ => every k
theorem zero (src : Source) (tag : Byte) (motor : Nat) (value : Word) : Statement (.zero src tag motor value) :=
  fun _ _ k _ => every k
theorem clearFault (src : Source) (tag : Byte) (motor : Nat) : Statement (.clearFault src tag motor) :=
  fun _ _ k _ => every k
theorem seg (src : Source) (tag : Byte) (motor : Nat) (r : RawSegment) : Statement (.seg src tag motor r) :=
  fun _ _ k _ => every k
theorem halt (src : Source) (tag : Byte) (motor : Nat) (action : Coded StopAction) : Statement (.halt src tag motor action) :=
  fun _ _ k _ => every k
theorem encoderStep (m : MotorId) (a b : Bool) : Statement (.encoderStep m a b) :=
  fun _ _ k _ => every k
theorem controlTick (m : MotorId) (isense : Int) : Statement (.controlTick m isense) :=
  fun _ _ k _ => every k
theorem trip (m : MotorId) : Statement (.trip m) :=
  fun _ _ k _ => every k
theorem durationExpiry (m : MotorId) : Statement (.durationExpiry m) :=
  fun _ _ k _ => every k
theorem stall (m : MotorId) : Statement (.stall m) :=
  fun _ _ k _ => every k
theorem budgetSet (src : Source) (tag : Byte) (budget : Int) : Statement (.budgetSet src tag budget) :=
  fun _ _ k _ => every k
theorem budgetRead (src : Source) (tag : Byte) : Statement (.budgetRead src tag) :=
  fun _ _ k _ => every k
theorem chainRestart (src : Source) (tag : Byte) (port : Nat) (option : Coded RestartOption) : Statement (.chainRestart src tag port option) :=
  fun _ _ k _ => every k
theorem chainSet (src : Source) (tag : Byte) (port : Nat) (f : ChainSetFields) : Statement (.chainSet src tag port f) :=
  fun _ _ k _ => every k
theorem chainRead (src : Source) (tag : Byte) (port : Nat) : Statement (.chainRead src tag port) :=
  fun _ _ k _ => every k
theorem moduleRead (src : Source) (tag : Byte) (port pos : Nat) : Statement (.moduleRead src tag port pos) :=
  fun _ _ k _ => every k
theorem modulePageWrite (src : Source) (tag : Byte) (port pos page : Nat) (bytes : PageBytes) : Statement (.modulePageWrite src tag port pos page bytes) :=
  fun _ _ k _ => every k
theorem modulePageRead (src : Source) (tag : Byte) (port pos page : Nat) : Statement (.modulePageRead src tag port pos page) :=
  fun _ _ k _ => every k
theorem resetRestExpiry (p : PortId) : Statement (.resetRestExpiry p) :=
  fun _ _ k _ => every k
theorem trainRetryTimer (p : PortId) : Statement (.trainRetryTimer p) :=
  fun _ _ k _ => every k
theorem emptyProbeTimer (p : PortId) : Statement (.emptyProbeTimer p) :=
  fun _ _ k _ => every k
theorem faultRetryTimer (p : PortId) : Statement (.faultRetryTimer p) :=
  fun _ _ k _ => every k
theorem syncTimerExpiry (p : PortId) : Statement (.syncTimerExpiry p) :=
  fun _ _ k _ => every k
theorem callSent (p : PortId) : Statement (.callSent p) :=
  fun _ _ k _ => every k
theorem transactionEnd (p : PortId) (retA retB : WireAnswer) : Statement (.transactionEnd p retA retB) :=
  fun _ _ k _ => every k
theorem answerTimeout (p : PortId) (retA retB : WireAnswer) : Statement (.answerTimeout p retA retB) :=
  fun _ _ k _ => every k
theorem missesAbsent (p : PortId) (pos : ModulePos) : Statement (.missesAbsent p pos) :=
  fun _ _ k _ => every k
theorem settleExpiry (p : PortId) (pos : ModulePos) : Statement (.settleExpiry p pos) :=
  fun _ _ k _ => every k
theorem staleDeadline (ch : ChannelId) : Statement (.staleDeadline ch) :=
  fun _ _ k _ => every k
theorem mapSet (src : Source) (tag : Byte) (f : MapFields) : Statement (.mapSet src tag f) :=
  fun _ _ k _ => every k
theorem mapClear (src : Source) (tag : Byte) (channel : Nat) : Statement (.mapClear src tag channel) :=
  fun _ _ k _ => every k
theorem channelRead (src : Source) (tag : Byte) (channel : Nat) : Statement (.channelRead src tag channel) :=
  fun _ _ k _ => every k
theorem watchSet (src : Source) (tag : Byte) (f : WatchFields) : Statement (.watchSet src tag f) :=
  fun _ _ k _ => every k
theorem watchClear (src : Source) (tag : Byte) (entry : Nat) : Statement (.watchClear src tag entry) :=
  fun _ _ k _ => every k
theorem reactSet (src : Source) (tag : Byte) (f : ReactFields) : Statement (.reactSet src tag f) :=
  fun _ _ k _ => every k
theorem reactClear (src : Source) (tag : Byte) (entry : Nat) : Statement (.reactClear src tag entry) :=
  fun _ _ k _ => every k
theorem reactRead (src : Source) (tag : Byte) (target : ReadTarget) : Statement (.reactRead src tag target) :=
  fun _ _ k _ => every k
theorem windowSet (src : Source) (tag : Byte) (f : WindowFields) : Statement (.windowSet src tag f) :=
  fun _ _ k _ => every k
theorem storeWrite (src : Source) (tag : Byte) (offset : Nat) (bytes : List Byte) : Statement (.storeWrite src tag offset bytes) :=
  fun _ _ k _ => every k
theorem storeRead (src : Source) (tag : Byte) (offset count : Nat) : Statement (.storeRead src tag offset count) :=
  fun _ _ k _ => every k
theorem clipDefine (src : Source) (tag : Byte) (f : ClipFields) : Statement (.clipDefine src tag f) :=
  fun _ _ k _ => every k
theorem clipRemove (src : Source) (tag : Byte) (entry : Nat) : Statement (.clipRemove src tag entry) :=
  fun _ _ k _ => every k
theorem cueSet (src : Source) (tag : Byte) (f : CueFields) : Statement (.cueSet src tag f) :=
  fun _ _ k _ => every k
theorem cueClear (src : Source) (tag : Byte) (entry : Nat) : Statement (.cueClear src tag entry) :=
  fun _ _ k _ => every k
theorem play (src : Source) (tag : Byte) (voice cue : Nat) : Statement (.play src tag voice cue) :=
  fun _ _ k _ => every k
theorem stop (src : Source) (tag : Byte) (voice : Nat) (option : Coded FadeOption) : Statement (.stop src tag voice option) :=
  fun _ _ k _ => every k
theorem voiceGain (src : Source) (tag : Byte) (voice : Nat) (level : Int) : Statement (.voiceGain src tag voice level) :=
  fun _ _ k _ => every k
theorem masterSet (src : Source) (tag : Byte) (master : Int) : Statement (.masterSet src tag master) :=
  fun _ _ k _ => every k
theorem outputSample : Statement .outputSample :=
  fun _ _ k _ => every k
theorem subscribe (src : Source) (tag : Byte) (f : SubscribeFields) : Statement (.subscribe src tag f) :=
  fun _ _ k _ => every k
theorem unsubscribe (src : Source) (tag : Byte) (id : Nat) : Statement (.unsubscribe src tag id) :=
  fun _ _ k _ => every k
theorem periodExpiry (id : SubId) : Statement (.periodExpiry id) :=
  fun _ _ k _ => every k
theorem byteReceived (link : Source) (byte : Byte) : Statement (.byteReceived link byte) :=
  fun _ _ k _ => every k
theorem carrierPeriod : Statement .carrierPeriod :=
  fun _ _ k _ => every k

end Sys2Proof.Laws.RequestRow
end

