-- ==== Sys2Proof/Laws/Wires.lean ====
section
/-! SUPPORT. What the operations of a chain leave of its records: a module changed, every module made ABSENT, the entry to
bring-up and to OFF, and the records across a hand-out of the wires (R74, R78, R85, R92, R99). -/

namespace Sys2Proof.Machine

open Sys2Proof.Safety

/-! ### Chains that work beside them leaves alone -/

theorem chain_of_quiet {s t : State} (h : Quiet s t) (p : PortId) : t.chain p = s.chain p := by
  unfold State.chain; rw [h.allChains]

theorem chain_staleServed (p q : PortId) (k : ModulePos) (s : State) : (staleServed p k s).chain q = s.chain q := by
  have h : (staleServed p k s).chains = s.chains := by
    unfold staleServed
    generalize allChannels = xs
    induction xs generalizing s with
    | nil => rfl
    | cons a rest ih =>
      rw [List.foldl_cons, ih]
      split <;> rfl
  unfold State.chain; rw [h]

/-- R96: the chain whose state changes, and the others. -/
theorem chain_changeChain (p : PortId) (st : ChainState) (c : ChainCause) (s : State) :
    (changeChain p st c s).chain p = { s.chain p with state := st } := by
  rw [chain_of_quiet (quiet_changeChain p st c s)]
  simp [State.modChain]

/-- R99, R104: the record of a module changed. -/
theorem chain_changeModule {s : State} {p : PortId} {k : ModulePos} {r : ModuleRecord} (h : s.module p k = some r)
    (c : ModuleCause) (f : ModuleRecord → ModuleRecord) :
    (changeModule p k c f s).chain p =
      { s.chain p with modules := (s.chain p).modules.set k.val (f r) } := by
  unfold changeModule
  rw [h]
  dsimp only
  rw [chain_of_quiet (quiet_moduleNotice p k _ c _)]
  split
  · rw [chain_staleServed]; simp [State.setModule, State.modChain]
  · simp [State.setModule, State.modChain]

/-! ### Every module ABSENT (R74, R92) -/

/-- R99: a record made ABSENT, or left as it was when it is ABSENT already. -/
def absentOnce (r : ModuleRecord) : ModuleRecord := if r.state = .absent then r else absentRecord r

theorem absentOnce_absent (r : ModuleRecord) : (absentOnce r).state = .absent := by
  unfold absentOnce
  split
  · assumption
  · rfl

theorem absentOnce_twice (r : ModuleRecord) : absentOnce (absentOnce r) = absentOnce r := by
  rw [absentOnce, if_pos (absentOnce_absent r)]

theorem chain_absentModule (s : State) (p : PortId) (k : ModulePos) (c : ModuleCause) :
    ∃ ms, (absentModule p k c s).1.chain p = { s.chain p with modules := ms } ∧
      ms.length = (s.chain p).modules.length ∧
      ∀ j : Nat, ms[j]? = if j = k.val then ((s.chain p).modules[j]?).map absentOnce else (s.chain p).modules[j]? := by
  unfold absentModule
  split
  · rename_i h
    refine ⟨(s.chain p).modules, rfl, rfl, fun j => ?_⟩
    split
    · rename_i e; subst e
      unfold State.module at h; rw [h]; rfl
    · rfl
  · rename_i r h
    have hr : (s.chain p).modules[k.val]? = some r := h
    split
    · rename_i e
      refine ⟨(s.chain p).modules, rfl, rfl, fun j => ?_⟩
      split
      · rename_i e'; subst e'; rw [hr, Option.map_some, absentOnce, if_pos e]
      · rfl
    · rename_i e
      refine ⟨(s.chain p).modules.set k.val (absentRecord r), chain_changeModule h c absentRecord, by simp, fun j => ?_⟩
      rw [List.getElem?_set]
      split
      · rename_i e'; subst e'
        have hlt : k.val < (s.chain p).modules.length := (List.getElem?_eq_some_iff.1 hr).1
        rw [if_pos rfl, if_pos hlt, hr, Option.map_some, absentOnce, if_neg e]
      · rename_i e'
        rw [if_neg (fun x => e' x.symm)]

/-- R74, R92: the records of a chain with every module made ABSENT. -/
theorem chain_absentAll (s : State) (p : PortId) (c : ModuleCause) :
    ∃ ms, (absentAll p c s).1.chain p = { s.chain p with modules := ms } ∧
      ms.length = (s.chain p).modules.length ∧
      ∀ k : ModulePos, ms[k.val]? = ((s.chain p).modules[k.val]?).map absentOnce := by
  have fold : ∀ (xs : List ModulePos) (acc : State × List ModulePos),
      ∃ ms, (xs.foldl (fun acc k =>
          let (t, changed) := absentModule p k c acc.1
          (t, acc.2 ++ changed)) acc).1.chain p = { acc.1.chain p with modules := ms } ∧
        ms.length = (acc.1.chain p).modules.length ∧
        ∀ j : Nat, ms[j]? =
          if j ∈ xs.map Fin.val then ((acc.1.chain p).modules[j]?).map absentOnce
          else (acc.1.chain p).modules[j]? := by
    intro xs
    induction xs with
    | nil => intro acc; exact ⟨(acc.1.chain p).modules, rfl, rfl, fun j => by rw [if_neg (by simp)]⟩
    | cons a rest ih =>
      intro acc
      obtain ⟨ms, h1, h2, h3⟩ := chain_absentModule acc.1 p a c
      obtain ⟨ns, k1, k2, k3⟩ := ih
        ((absentModule p a c acc.1).1, acc.2 ++ (absentModule p a c acc.1).2)
      refine ⟨ns, ?_, ?_, fun j => ?_⟩
      · rw [List.foldl_cons]
        exact k1.trans (by dsimp only; rw [h1])
      · rw [k2]; dsimp only; rw [h1]; exact h2
      · rw [k3 j]; dsimp only; rw [h1]; dsimp only; rw [h3 j]
        by_cases e : j = a.val
        · subst e
          simp only [List.map_cons, List.mem_cons, true_or, if_true]
          split
          · rw [Option.map_map]
            congr 1
            funext r
            exact absentOnce_twice r
          · rfl
        · simp only [List.map_cons, List.mem_cons, e, false_or, if_false]
  obtain ⟨ms, h1, h2, h3⟩ := fold (heldPositions (s.chain p)) (s, [])
  refine ⟨ms, h1, h2, fun k => ?_⟩
  rw [h3 k.val]
  split
  · rfl
  · rename_i n
    have out : (s.chain p).modules[k.val]? = none := by
      rw [List.getElem?_eq_none_iff]
      by_contra lt
      refine n (List.mem_map.2 ⟨k, ?_, rfl⟩)
      unfold heldPositions
      rw [List.mem_filter]
      exact ⟨by fin_cases k <;> simp [allPositions], by simpa using lt⟩
    rw [out]; rfl

/-- R74, R92: the chain after a stop of its work, with every module ABSENT. -/
theorem chain_enterBringUp (p : PortId) (c : ChainCause) (ks : List ModulePos) (s : State) :
    ∃ ms, QueuesOnly { Chain.halted (some .resetAll) (s.chain p) with state := .reset, modules := ms }
        ((enterBringUp p c ks s).chain p) ∧
      ms.length = (s.chain p).modules.length ∧
      ∀ k : ModulePos, ms[k.val]? = ((s.chain p).modules[k.val]?).map absentOnce := by
  unfold enterBringUp
  obtain ⟨ms, h1, h2, h3⟩ := chain_absentAll (s.modChain p (Chain.halted (some .resetAll))) p .bringUp
  have e : (s.modChain p (Chain.halted (some .resetAll))).chain p = Chain.halted (some .resetAll) (s.chain p) := by
    simp [State.modChain]
  rw [e] at h1 h2 h3
  generalize absentAll p .bringUp (s.modChain p (Chain.halted (some .resetAll))) = x at h1 ⊢
  obtain ⟨s1, changed⟩ := x
  dsimp only at h1 ⊢
  refine ⟨ms, ?_, h2, h3⟩
  have q := (calm_moduleReport p (ks ++ changed) (changeChain p .reset c s1)).chains p
  rw [chain_changeChain, h1] at q
  exact q

/-- R92: the chain in OFF. -/
theorem chain_enterOff (p : PortId) (s : State) :
    ∃ ms, QueuesOnly { Chain.halted none (s.chain p) with state := .off, modules := ms } ((enterOff p s).chain p) ∧
      ms.length = (s.chain p).modules.length ∧
      ∀ k : ModulePos, ms[k.val]? = ((s.chain p).modules[k.val]?).map absentOnce := by
  unfold enterOff
  obtain ⟨ms, h1, h2, h3⟩ := chain_absentAll (s.modChain p (Chain.halted none)) p .off
  have e : (s.modChain p (Chain.halted none)).chain p = Chain.halted none (s.chain p) := by simp [State.modChain]
  rw [e] at h1 h2 h3
  generalize absentAll p .off (s.modChain p (Chain.halted none)) = x at h1 ⊢
  obtain ⟨s1, changed⟩ := x
  dsimp only at h1 ⊢
  refine ⟨ms, ?_, h2, h3⟩
  have q := (calm_moduleReport p changed (changeChain p .off .request s1)).chains p
  rw [chain_changeChain, h1] at q
  exact q

/-- R83, R92: abandoned work leaves the chain but for its call and its queues. -/
theorem chain_abortWork (p : PortId) (s : State) :
    QueuesOnly { s.chain p with inFlight := none } ((abortWork p s).chain p) := by
  have op : ∀ (t : State) (x : PageOp), QueuesOnly (t.chain p) ((abortOp t x).chain p) := by
    intro t x
    unfold abortOp
    split
    · unfold State.chain; rw [State.post_chains]; exact QueuesOnly.refl _
    · exact (calm_copyWriteEnded false t).chains p
    · exact QueuesOnly.refl _
  have fold : ∀ (xs : List PageOp) (t : State), QueuesOnly (t.chain p) ((xs.foldl abortOp t).chain p) := by
    intro xs
    induction xs with
    | nil => intro t; exact QueuesOnly.refl _
    | cons a rest ih => intro t; exact QueuesOnly.trans (op t a) (ih _)
  have queue : ∀ (n : Nat) (t : State), QueuesOnly (t.chain p) ((abortQueue p n t).chain p) := by
    intro n
    induction n with
    | zero => intro t; exact QueuesOnly.refl _
    | succ n ih =>
      intro t
      unfold abortQueue
      dsimp only
      split
      · exact QueuesOnly.refl _
      · refine QueuesOnly.trans ?_ (ih _)
        refine QueuesOnly.trans ?_ (fold _ _)
        rw [State.chain_setChain_self]
        unfold QueuesOnly; rfl
  have h := queue 17 (s.modChain p fun c => { c with inFlight := none })
  rw [State.modChain, State.chain_setChain_self] at h
  exact h

end Sys2Proof.Machine

namespace Sys2Proof.Safety

open Sys2Proof.Machine

/-- A chain that has stopped stays so while its queues change. -/
theorem Stopped.queues {st : ChainState} {call : Option Call} {a b c : Chain} (h : Stopped st call a b)
    (q : QueuesOnly b c) : Stopped st call a c := by
  rw [q]
  exact ⟨h.state, h.call, h.quiet, h.records, h.count, h.kept⟩

end Sys2Proof.Safety

namespace Sys2Proof.Machine

open Sys2Proof.Safety

/-- R74, R92: a chain of the stopped fields and the records made ABSENT has stopped. -/
theorem stopped_halted (st : ChainState) (call : Option Call) (c : Chain) {ms : List ModuleRecord}
    (len : ms.length = c.modules.length) (rec : ∀ k : ModulePos, ms[k.val]? = (c.modules[k.val]?).map absentOnce) :
    Stopped st call c { Chain.halted call c with state := st, modules := ms } :=
  ⟨rfl, rfl, ⟨rfl, rfl, rfl, rfl, rfl, rfl, rfl⟩, rec, len, ⟨rfl, rfl, rfl, rfl, rfl, rfl⟩⟩

/-- R74: an entry to bring-up stops the chain in RESET. -/
theorem stopped_enterBringUp (p : PortId) (c : ChainCause) (ks : List ModulePos) (s : State) :
    Stopped .reset (some .resetAll) (s.chain p) ((enterBringUp p c ks s).chain p) ∧
      ((enterBringUp p c ks s).chain p).faultCount = (s.chain p).faultCount := by
  obtain ⟨ms, q, len, rec⟩ := chain_enterBringUp p c ks s
  exact ⟨(stopped_halted .reset (some .resetAll) (s.chain p) len rec).queues q, by rw [q]; rfl⟩

/-- R92: an entry to OFF stops the chain there. -/
theorem stopped_enterOff (p : PortId) (s : State) :
    Stopped .off none (s.chain p) ((enterOff p s).chain p) ∧
      ((enterOff p s).chain p).faultCount = (s.chain p).faultCount := by
  obtain ⟨ms, q, len, rec⟩ := chain_enterOff p s
  exact ⟨(stopped_halted .off none (s.chain p) len rec).queues q, by rw [q]; rfl⟩

end Sys2Proof.Machine

namespace Sys2Proof.Safety

open Sys2Proof.Machine

/-- A stopped chain is judged against any chain of the same records, marks and settings. -/
theorem Stopped.of {st : ChainState} {call : Option Call} {a b c : Chain} (h : Stopped st call a c)
    (same : a.modules = b.modules)
    (kept : a.failedA = b.failedA ∧ a.failedB = b.failedB ∧ a.selected = b.selected ∧ a.syncPeriod = b.syncPeriod ∧
      a.threshold = b.threshold ∧ a.sticky = b.sticky) : Stopped st call b c := by
  obtain ⟨k1, k2, k3, k4, k5, k6⟩ := kept
  obtain ⟨h1, h2, h3, h4, h5, h6⟩ := h.kept
  exact ⟨h.state, h.call, h.quiet, fun k => (h.records k).trans (by rw [same]), h.count.trans (by rw [same]),
    h1.trans k1, h2.trans k2, h3.trans k3, h4.trans k4, h5.trans k5, h6.trans k6⟩

end Sys2Proof.Safety

namespace Sys2Proof.Machine

open Sys2Proof.Safety

/-! ### The records across a hand-out of the wires (R85, R87) -/

/-- The records of a chain but for their poll countdowns. -/
def storedModules (c : Chain) : List ModuleRecord := c.modules.map storedModule

theorem storedModules_of_queues {c d : Chain} (h : QueuesOnly c d) : storedModules d = storedModules c := by
  rw [h]; rfl

theorem storedModules_sync (now : Word) (c : Chain) : storedModules (Chain.sync now c) = storedModules c := by
  unfold storedModules Chain.sync
  dsimp only
  rw [List.map_map]
  congr 1
  funext r
  unfold countPoll Function.comp
  dsimp only
  split
  · rfl
  · split <;> rfl

theorem storedModules_handOut (p q : PortId) (s : State) :
    storedModules ((handOut p s).chain q) = storedModules (s.chain q) := by
  by_cases e : q = p
  · subst e
    unfold handOut
    dsimp only
    split
    · simp only [State.modChain, State.chain_setChain_self]
      exact storedModules_sync _ _
    · split
      · rw [State.chain_setChain_self]; rfl
      · split
        · simp only [sendCall, State.modChain, State.chain_setChain_self]; rfl
        · unfold endHead
          have d : storedModules ((s.modChain q Chain.dropHead).chain q) = storedModules (s.chain q) := by
            simp only [State.modChain, State.chain_setChain_self]
            rfl
          dsimp only
          split
          · unfold State.chain at d ⊢; rw [State.post_chains]; exact d
          · rw [storedModules_of_queues ((calm_copyWriteEnded _ _).chains q)]; exact d
          · exact d
      · rfl
  · exact storedModules_of_queues ((atPort_handOut p s).others q e)

/-- R87: a hand-out of the wires keeps every record but for its poll countdown. -/
theorem storedModules_handOutFrom (p q : PortId) (s : State) :
    storedModules ((handOutFrom p s).chain q) = storedModules (s.chain q) := by
  have settle : ∀ (n : Nat) (t : State), storedModules ((settleWires n t).chain q) = storedModules (t.chain q) := by
    intro n
    induction n with
    | zero => intro t; rfl
    | succ n ih =>
      intro t
      unfold settleWires
      split
      · rfl
      · rw [ih, storedModules_handOut]
  unfold handOutFrom
  split
  · rw [settle, storedModules_handOut]
  · exact settle 256 s

/-- One record across a change that keeps the records but for their countdowns. -/
theorem record_of_stored {c d : Chain} (h : storedModules d = storedModules c) {k : Nat} {r : ModuleRecord}
    (e : c.modules[k]? = some r) : ∃ r', d.modules[k]? = some r' ∧ storedModule r' = storedModule r := by
  have x : (storedModules d)[k]? = some (storedModule r) := by rw [h]; simp [storedModules, e]
  unfold storedModules at x
  rw [List.getElem?_map, Option.map_eq_some_iff] at x
  exact x

end Sys2Proof.Machine
end

