-- ==== Sys2Proof/Laws/Restart.lean ====
section
/-! SUPPORT. What a restart leaves of a chain's page-operation queue: each turn of the emptying takes a channel off the
failover wait list for every operation that it finds handed anew, so the queue is empty in the end (R83, R92, R114,
R117); and a chain that is not live takes no operation from the copy engine, and keeps its empty queue (R88, R90). -/

namespace Sys2Proof.Machine

open Sys2Proof.Safety

/-! ### The wait list and the queue of one chain -/

/-- R114: the number of channels in WAITING. -/
def waitingCount (s : State) : Nat := allChannels.countP fun k => decide ((s.channel k).state = .waiting)

/-- The operations in the queue of a chain and held aside. -/
def queuedAt (p : PortId) (s : State) : Nat := (s.chain p).queue.length + (s.chain p).aside.length

/-- Work that hands chain `p` no more operations than it takes channels off the wait list. -/
def Consumes (p : PortId) (s t : State) : Prop :=
  waitingCount t ≤ waitingCount s ∧ queuedAt p t + waitingCount t ≤ queuedAt p s + waitingCount s

theorem Consumes.refl (p : PortId) (s : State) : Consumes p s s := ⟨le_refl _, le_refl _⟩

theorem Consumes.trans {p : PortId} {a b c : State} (h : Consumes p a b) (k : Consumes p b c) : Consumes p a c :=
  ⟨k.1.trans h.1, k.2.trans h.2⟩

theorem waitingCount_congr {s t : State} (h : t.channels = s.channels) : waitingCount t = waitingCount s := by
  unfold waitingCount State.channel; rw [h]

theorem queuedAt_congr {s t : State} (h : t.chains = s.chains) (p : PortId) : queuedAt p t = queuedAt p s := by
  unfold queuedAt State.chain; rw [h]

/-- Work that keeps channels and chains consumes nothing. -/
theorem Consumes.same {s t : State} (p : PortId) (c : t.channels = s.channels) (q : t.chains = s.chains) :
    Consumes p s t := by
  unfold Consumes
  rw [waitingCount_congr c, queuedAt_congr q]
  exact ⟨le_refl _, le_refl _⟩

/-- The count of a list in which one place has ceased to count. -/
theorem countP_off {α : Type} [DecidableEq α] {f g : α → Bool} {a : α} (off : g a = false)
    (other : ∀ b, b ≠ a → g b = f b) :
    ∀ xs : List α, xs.countP g + (if f a then xs.count a else 0) = xs.countP f := by
  intro xs
  induction xs with
  | nil => simp
  | cons b rest ih =>
    simp only [List.countP_cons, List.count_cons]
    by_cases e : b = a
    · subst e
      cases h : f b <;> simp_all <;> omega
    · have x := other b e
      have y : (b == a) = false := by simpa using e
      simp only [x, y]
      cases h : f a <;> simp_all <;> omega

theorem count_allChannels (ch : ChannelId) : allChannels.count ch = 1 := by revert ch; decide

/-- R114: a channel set to another state than WAITING leaves the wait list, if it was on it. -/
theorem waitingCount_setChannel (s : State) (ch : ChannelId) {x : Channel} (h : x.state ≠ .waiting) :
    waitingCount (s.setChannel ch x) + (if (s.channel ch).state = .waiting then 1 else 0) = waitingCount s := by
  have k := countP_off (a := ch) (f := fun k => decide ((s.channel k).state = .waiting))
    (g := fun k => decide (((s.setChannel ch x).channel k).state = .waiting)) (by simp [h])
    (fun b ne => by simp [State.channel_setChannel_ne _ _ ne.symm]) allChannels
  rw [count_allChannels] at k
  unfold waitingCount
  rw [← k]
  congr 1
  by_cases e : (s.channel ch).state = .waiting <;> simp [e]

/-- R113, R115: a channel that leaves the wait list, or was not on it, with what follows from its loss or its notice. -/
theorem consumes_entered {s t : State} {ch : ChannelId} {x : Channel} (p : PortId) (h : x.state ≠ .waiting)
    (k : Local (s.setChannel ch x) t) :
    waitingCount t + (if (s.channel ch).state = .waiting then 1 else 0) = waitingCount s ∧ queuedAt p t = queuedAt p s := by
  rw [waitingCount_congr k.channels, queuedAt_congr k.allChains]
  exact ⟨waitingCount_setChannel s ch h, rfl⟩

/-- R113: entry to LOST. -/
theorem counts_enterLost (p : PortId) (ch : ChannelId) (c : ChannelCause) (s : State) :
    waitingCount (enterLost ch c s) + (if (s.channel ch).state = .waiting then 1 else 0) = waitingCount s ∧
      queuedAt p (enterLost ch c s) = queuedAt p s :=
  consumes_entered (x := lostChannel (s.channel ch)) p (fun e => by cases e)
    ((quiet_placeBoth _ _).toLocal.trans (local_channelLoss ch .loss _))

theorem consumes_enterLost (p : PortId) (ch : ChannelId) (c : ChannelCause) (s : State) :
    Consumes p s (enterLost ch c s) := by
  obtain ⟨w, q⟩ := counts_enterLost p ch c s
  exact ⟨by omega, by omega⟩

/-- R117: an engine made free keeps the length of every queue. -/
theorem consumes_freeEngine (p : PortId) (s : State) : Consumes p s (freeEngine s) := by
  have step : ∀ (t : State) (q : PortId), Consumes p t (t.modChain q fun c =>
      { c with queue := c.queue.map orphanCopy, aside := c.aside.map orphanCopy }) := by
    intro t q
    have c : queuedAt p (t.modChain q fun c =>
        { c with queue := c.queue.map orphanCopy, aside := c.aside.map orphanCopy }) = queuedAt p t := by
      unfold queuedAt State.modChain
      by_cases e : q = p
      · subst e; simp
      · rw [State.chain_setChain_ne _ _ e]
    unfold Consumes
    rw [c]
    exact ⟨le_refl _, le_refl _⟩
  have fold : ∀ (xs : List PortId) (t : State), Consumes p t (xs.foldl (fun t q => t.modChain q fun c =>
      { c with queue := c.queue.map orphanCopy, aside := c.aside.map orphanCopy }) t) := by
    intro xs
    induction xs with
    | nil => intro t; exact Consumes.refl p t
    | cons a rest ih => intro t; exact (step t a).trans (ih _)
  exact (Consumes.same (t := { s with copy := none }) p rfl rfl).trans (fold allPorts _)

/-- R90: a copy write handed in adds one operation at most. -/
theorem handNext_counts {c : Copy} {s t : State} (h : handNext c s = some t) (p : PortId) :
    waitingCount t = waitingCount s ∧ queuedAt p t ≤ queuedAt p s + 1 := by
  unfold handNext at h
  split at h
  · unfold handCopyWrite at h
    dsimp only at h
    split at h
    · cases h
    · split at h <;>
      · injection h with h
        subst h
        refine ⟨waitingCount_congr rfl, ?_⟩
        unfold queuedAt
        rename_i target _ _ _ _ _ _ _
        by_cases e : target.port = p
        · subst e; rw [State.chain_setChain_self]; simp; omega
        · rw [State.chain_setChain_ne _ _ e]; omega
  · cases h

/-- R115: a waiting channel taken by the engine. -/
theorem consumes_startCopy (p : PortId) {ch : ChannelId} {s : State} (w : (s.channel ch).state = .waiting) :
    Consumes p s (startCopy ch s) := by
  unfold startCopy
  split
  · exact consumes_enterLost p ch _ s
  · rename_i c _
    dsimp only
    have first : ∀ u : State, Local ((({ s with copy := some c } : State)).setChannel ch
        { staleChannel (s.channel ch) with state := .copying }) u →
        waitingCount u + 1 = waitingCount s ∧ queuedAt p u = queuedAt p s := by
      intro u k
      have h := consumes_entered (s := { s with copy := some c }) (t := u) (ch := ch)
        (x := { staleChannel (s.channel ch) with state := .copying }) p (fun e => by cases e) k
      have w' : (({ s with copy := some c } : State).channel ch).state = .waiting := w
      rw [if_pos w'] at h
      exact h
    specialize first (changeChannel ch .copyStarted (fun x => { staleChannel x with state := .copying })
      { s with copy := some c }) (quiet_placeBoth _ _).toLocal
    generalize changeChannel ch .copyStarted (fun x => { staleChannel x with state := .copying })
      { s with copy := some c } = u at first ⊢
    obtain ⟨f1, f2⟩ := first
    split
    · rename_i s2 h
      obtain ⟨a, b⟩ := handNext_counts h p
      exact ⟨by omega, by omega⟩
    · exact Consumes.trans ⟨by omega, by omega⟩
        ((consumes_freeEngine p _).trans (consumes_enterLost p ch _ _))

theorem consumes_runEngine (p : PortId) (n : Nat) : ∀ s : State, Consumes p s (runEngine n s) := by
  induction n with
  | zero => intro s; exact Consumes.refl p s
  | succ n ih =>
    intro s
    unfold runEngine
    split
    · exact Consumes.refl p s
    · split
      · exact Consumes.refl p s
      · rename_i ch h
        have w : (s.channel ch).state = .waiting := by simpa [lowestWaiting] using List.find?_some h
        exact (consumes_startCopy p w).trans (ih _)

theorem consumes_copyFailed (p : PortId) (s : State) : Consumes p s (copyWriteEnded false s) := by
  unfold copyWriteEnded
  split
  · exact Consumes.refl p s
  · rw [if_neg (by decide)]
    exact ((consumes_freeEngine p s).trans (consumes_enterLost p _ _ _)).trans (consumes_runEngine p 16 _)

theorem consumes_abortOp (p : PortId) (s : State) (op : PageOp) : Consumes p s (abortOp s op) := by
  unfold abortOp
  split
  · exact Consumes.same p (State.post_channels s _ _ _) (State.post_chains s _ _ _)
  · exact consumes_copyFailed p s
  · exact Consumes.refl p s

/-! ### The queue emptied (R83, R92) -/

/-- R83, R92: with more turns than channels wait, the queue of the chain is empty in the end. -/
theorem abortQueue_empties (p : PortId) (n : Nat) : ∀ s : State, waitingCount s < n →
    ((abortQueue p n s).chain p).queue = [] ∧ ((abortQueue p n s).chain p).aside = [] := by
  induction n with
  | zero => intro s h; omega
  | succ n ih =>
    intro s h
    unfold abortQueue
    dsimp only
    split
    · assumption
    · have fold : ∀ (xs : List PageOp) (t : State), Consumes p t (xs.foldl abortOp t) := by
        intro xs
        induction xs with
        | nil => intro t; exact Consumes.refl p t
        | cons a rest ih => intro t; exact (consumes_abortOp p t a).trans (ih _)
      have turn := fold ((s.chain p).queue ++ (s.chain p).aside)
        (s.setChain p { s.chain p with queue := [], aside := [] })
      generalize ((s.chain p).queue ++ (s.chain p).aside).foldl abortOp
        (s.setChain p { s.chain p with queue := [], aside := [] }) = t at turn ⊢
      have empty : queuedAt p (s.setChain p { s.chain p with queue := [], aside := [] }) = 0 := by
        unfold queuedAt; rw [State.chain_setChain_self]; rfl
      have same : waitingCount (s.setChain p { s.chain p with queue := [], aside := [] }) = waitingCount s :=
        waitingCount_congr rfl
      obtain ⟨a, b⟩ := turn
      rw [same] at a b
      rw [empty] at b
      by_cases e : queuedAt p t = 0
      · have q : (t.chain p).queue = [] ∧ (t.chain p).aside = [] := by
          unfold queuedAt at e
          exact ⟨List.length_eq_zero_iff.1 (by omega), List.length_eq_zero_iff.1 (by omega)⟩
        cases n with
        | zero => exact q
        | succ n => unfold abortQueue; dsimp only; rw [if_pos q]; exact q
      · exact ih t (by omega)

/-- R83, R92: abandoned work leaves the queue of its chain empty. -/
theorem abortWork_empties (p : PortId) (s : State) :
    ((abortWork p s).chain p).queue = [] ∧ ((abortWork p s).chain p).aside = [] := by
  unfold abortWork
  refine abortQueue_empties p 17 _ ?_
  have := List.countP_le_length (p := fun k => decide (((s.modChain p fun c => { c with inFlight := none }).channel k).state
    = .waiting)) (l := allChannels)
  have len : allChannels.length = 16 := rfl
  unfold waitingCount
  omega

/-! ### A chain that is not live keeps its empty queue (R88, R90) -/

/-- A chain that is not live and has no page operation. -/
def Chain.Unworked (c : Chain) : Prop := c.live = false ∧ c.queue = [] ∧ c.aside = []

/-- Work that leaves chain `p` alone while it is not live and has no page operation. -/
def Rests (p : PortId) (s t : State) : Prop := (s.chain p).Unworked → t.chain p = s.chain p

theorem Rests.same {p : PortId} {s t : State} (h : t.chain p = s.chain p) : Rests p s t := fun _ => h

theorem Rests.refl (p : PortId) (s : State) : Rests p s s := .same rfl

theorem Rests.trans {p : PortId} {a b c : State} (h : Rests p a b) (k : Rests p b c) : Rests p a c := fun u => by
  have e := h u
  rw [k (by rw [e]; exact u), e]

theorem Rests.local {p : PortId} {s t : State} (h : Local s t) : Rests p s t := by
  unfold Rests State.chain
  rw [h.allChains]
  exact fun _ => rfl

theorem rests_foldl {α : Type} {p : PortId} {f : State → α → State} (h : ∀ s a, Rests p s (f s a)) (xs : List α)
    (s : State) : Rests p s (xs.foldl f s) := by
  induction xs generalizing s with
  | nil => exact Rests.refl p s
  | cons a rest ih => exact (h s a).trans (ih _)

theorem rests_changeChannel (p : PortId) (ch : ChannelId) (c : ChannelCause) (f : Channel → Channel) (s : State) :
    Rests p s (changeChannel ch c f s) :=
  (Rests.same rfl : Rests p s (s.setChannel ch (f (s.channel ch)))).trans (.local (quiet_placeBoth _ _).toLocal)

theorem rests_enterLost (p : PortId) (ch : ChannelId) (c : ChannelCause) (s : State) : Rests p s (enterLost ch c s) :=
  (rests_changeChannel p ch c _ s).trans (.local (local_channelLoss ch .loss _))

theorem rests_handNext {c : Copy} {s t : State} (h : handNext c s = some t) (p : PortId) : Rests p s t := by
  intro u
  unfold handNext at h
  split at h
  · rename_i target _ _ _ _
    unfold handCopyWrite at h
    dsimp only at h
    by_cases e : target.port = p
    · have r : pageRefusal (s.chain target.port) target.pos = some .busy := by
        unfold pageRefusal; rw [e, u.1]; rfl
      rw [r] at h
      cases h
    · split at h
      · cases h
      · split at h <;> (cases h; exact State.chain_setChain_ne _ _ e)
  · cases h

theorem rests_freeEngine (p : PortId) (s : State) : Rests p s (freeEngine s) := by
  refine (Rests.same rfl : Rests p s { s with copy := none }).trans
    (rests_foldl (fun t q => ?_) allPorts { s with copy := none })
  intro u
  unfold State.modChain
  by_cases e : q = p
  · subst e
    rw [State.chain_setChain_self]
    generalize t.chain q = c at u ⊢
    obtain ⟨-, k1, k2⟩ := u
    dsimp only
    rw [k1, k2, List.map_nil]
    cases c
    simp_all
  · exact State.chain_setChain_ne _ _ e

theorem rests_startCopy (p : PortId) (ch : ChannelId) (s : State) : Rests p s (startCopy ch s) := by
  unfold startCopy
  split
  · exact rests_enterLost p ch _ s
  · rename_i c _
    have k := (Rests.same rfl : Rests p s { s with copy := some c }).trans (rests_changeChannel p ch .copyStarted
      (fun x => { staleChannel x with state := .copying }) _)
    dsimp only
    split
    · rename_i h; exact k.trans (rests_handNext h p)
    · exact k.trans ((rests_freeEngine p _).trans (rests_enterLost p ch _ _))

theorem rests_runEngine (p : PortId) (n : Nat) : ∀ s : State, Rests p s (runEngine n s) := by
  induction n with
  | zero => intro s; exact Rests.refl p s
  | succ n ih =>
    intro s
    unfold runEngine
    split
    · exact Rests.refl p s
    · split
      · exact Rests.refl p s
      · exact (rests_startCopy p _ s).trans (ih _)

theorem rests_failCopy (p : PortId) (ch : ChannelId) (c : ChannelCause) (s : State) : Rests p s (failCopy ch c s) :=
  ((rests_freeEngine p s).trans (rests_enterLost p ch c _)).trans (rests_runEngine p 16 _)

theorem rests_copyWriteEnded (p : PortId) (done : Bool) (s : State) : Rests p s (copyWriteEnded done s) := by
  unfold copyWriteEnded
  split
  · exact Rests.refl p s
  · rename_i c _
    have k : Rests p s { s with copy := some { c with written := c.written + 1 } } := .same rfl
    split
    · dsimp only
      split
      · split
        · rename_i h; exact k.trans (rests_handNext h p)
        · exact k.trans (rests_failCopy p _ _ _)
      · exact k
    · exact rests_failCopy p _ _ s

theorem rests_completeCopy (p : PortId) (ch : ChannelId) (s : State) : Rests p s (completeCopy ch s) := by
  unfold completeCopy
  dsimp only
  refine Rests.trans ?_ (rests_runEngine p 16 _)
  exact (rests_changeChannel p ch .copyDone _ s).trans (Rests.same rfl)

theorem rests_judgeChannel (p : PortId) (ch : ChannelId) (s : State) : Rests p s (judgeChannel ch s) := by
  have fresh : Rests p s (judgeFresh ch s) := by
    unfold judgeFresh
    split
    · exact Rests.refl p s
    · split
      · split
        · exact Rests.refl p s
        · exact .same rfl
      · exact .same rfl
  unfold judgeChannel
  refine fresh.trans ?_
  generalize judgeFresh ch s = u
  have falls : Rests p u (servingFalls ch u) := by
    unfold servingFalls
    split
    · exact (rests_changeChannel p ch _ _ u).trans (rests_runEngine p 16 _)
    · exact rests_enterLost p ch _ u
  dsimp only
  split
  · exact Rests.refl p u
  · unfold judgeSingle
    dsimp only
    split
    · exact rests_enterLost p ch _ u
    · split
      · exact rests_enterLost p ch _ u
      · split
        · exact rests_changeChannel p ch _ _ u
        · split
          · exact rests_changeChannel p ch _ _ u
          · exact Rests.refl p u
  · split
    · exact falls
    · split
      · exact Rests.refl p u
      · exact rests_changeChannel p ch _ _ u
  · split
    · exact falls
    · split
      · exact rests_changeChannel p ch _ _ u
      · exact Rests.refl p u
  · split
    · exact rests_enterLost p ch _ u
    · exact Rests.refl p u
  · split
    · exact rests_failCopy p ch _ u
    · split
      · split
        · exact rests_completeCopy p ch u
        · exact Rests.refl p u
      · exact Rests.refl p u
  · unfold recoverChannel
    dsimp only
    split
    · exact rests_changeChannel p ch _ _ u
    · exact Rests.refl p u

/-- R104, R112: a module report leaves a chain that is not live and has no page operation. -/
theorem rests_moduleReport (p q : PortId) (ks : List ModulePos) (s : State) : Rests p s (moduleReport q ks s) := by
  unfold moduleReport
  split
  · exact Rests.refl p s
  · refine rests_foldl (fun t ch => ?_) allChannels s
    split
    · exact rests_judgeChannel p ch t
    · exact Rests.refl p t

/-- R87: one wire handed out leaves a chain that is not live and has no page operation. -/
theorem rests_handOut {p q : PortId} {s : State} (w : (s.chain q).wants = true) : Rests p s (handOut q s) := by
  intro u
  have ne : q ≠ p := by
    rintro rfl
    rw [Chain.wants_heldBack (by unfold Chain.heldBack; rw [u.1]; cases (s.chain q).inFlight.isSome <;> rfl)] at w
    cases w
  have set : ∀ c : Chain, (s.setChain q c).chain p = s.chain p := fun c => State.chain_setChain_ne _ _ ne
  unfold handOut
  dsimp only
  split
  · exact set _
  · split
    · exact set _
    · split
      · exact set _
      · unfold endHead
        have drop : (s.modChain q Chain.dropHead).chain p = s.chain p := set _
        dsimp only
        split
        · rw [← drop]; unfold State.chain; rw [State.post_chains]
        · rw [rests_copyWriteEnded p _ _ (by rw [drop]; exact u), drop]
        · exact drop
    · rfl

/-- R87: the wires handed out leave a chain that is not live and has no page operation. -/
theorem rests_handOutFrom (p q : PortId) (s : State) : Rests p s (handOutFrom q s) := by
  have settle : ∀ (n : Nat) (t : State), Rests p t (settleWires n t) := by
    intro n
    induction n with
    | zero => intro t; exact Rests.refl p t
    | succ n ih =>
      intro t
      unfold settleWires
      split
      · exact Rests.refl p t
      · rename_i q e
        have w := List.find?_some e
        exact (rests_handOut w).trans (ih _)
  unfold handOutFrom
  split
  · rename_i w; exact (rests_handOut w).trans (settle 256 _)
  · exact settle 256 s

/-- R74, R92: an entry to bring-up leaves an empty queue empty. -/
theorem unworked_enterBringUp (p : PortId) (c : ChainCause) (ks : List ModulePos) {s : State}
    (q : (s.chain p).queue = [] ∧ (s.chain p).aside = []) : ((enterBringUp p c ks s).chain p).Unworked := by
  unfold enterBringUp
  obtain ⟨ms, h, -, -⟩ := chain_absentAll (s.modChain p (Chain.halted (some .resetAll))) p .bringUp
  generalize absentAll p .bringUp (s.modChain p (Chain.halted (some .resetAll))) = x at h ⊢
  obtain ⟨s1, changed⟩ := x
  have u : ((changeChain p .reset c s1).chain p).Unworked := by
    rw [chain_changeChain, h, State.modChain, State.chain_setChain_self]
    exact ⟨rfl, q.1, q.2⟩
  dsimp only
  rw [rests_moduleReport p p _ _ u]
  exact u

/-- R92: an entry to OFF leaves an empty queue empty. -/
theorem unworked_enterOff (p : PortId) {s : State} (q : (s.chain p).queue = [] ∧ (s.chain p).aside = []) :
    ((enterOff p s).chain p).Unworked := by
  unfold enterOff
  obtain ⟨ms, h, -, -⟩ := chain_absentAll (s.modChain p (Chain.halted none)) p .off
  generalize absentAll p .off (s.modChain p (Chain.halted none)) = x at h ⊢
  obtain ⟨s1, changed⟩ := x
  have u : ((changeChain p .off .request s1).chain p).Unworked := by
    rw [chain_changeChain, h, State.modChain, State.chain_setChain_self]
    exact ⟨rfl, q.1, q.2⟩
  dsimp only
  rw [rests_moduleReport p p _ _ u]
  exact u

end Sys2Proof.Machine
end

