-- ==== Sys2Proof/Laws/Store.lean ====
section
/-! SUPPORT. The clip store: what a write leaves at each offset, that every write keeps the canonical form, and that
equal contents are equal data (R136, R138). -/

namespace Sys2Proof.Machine

/-! ### Reading after writing -/

/-- A list whose offsets start at `lo` reads 00h below `lo`. -/
theorem Store.read_below {cells : List Host.Cell} : ∀ {lo a : Nat}, Store.wfFrom lo cells = true → a < lo →
    Store.read cells a = 0 := by
  induction cells with
  | nil => intros; rfl
  | cons c rest ih =>
    intro lo a h ha
    obtain ⟨b, v⟩ := c
    simp only [Store.wfFrom, Bool.and_eq_true, decide_eq_true_eq] at h
    simp only [Store.read]
    rw [if_neg (by omega)]
    exact ih h.2 (by omega)

/-- One write: the offset written reads the new byte, every other offset reads as before. -/
theorem Store.read_write {cells : List Host.Cell} : ∀ {lo : Nat} (_ : Store.wfFrom lo cells = true) (a x : Nat)
    (v : Byte), Store.read (Store.write cells a v) x = if x = a then v else Store.read cells x := by
  induction cells with
  | nil =>
    intro lo _ a x v
    simp only [Store.write]
    split
    · rename_i hv; by_cases hx : x = a <;> simp [Store.read, hv, hx]
    · by_cases hx : x = a <;> simp [Store.read, hx]
  | cons c rest ih =>
    intro lo h a x v
    obtain ⟨b, w⟩ := c
    simp only [Store.wfFrom, Bool.and_eq_true, decide_eq_true_eq] at h
    have below := @Store.read_below rest (b + 1)
    have step := ih h.2 a x v
    simp only [Store.write]
    split
    · by_cases hv : v = 0
      · rw [if_pos hv]
        by_cases hx : x = a
        · subst hx; simp only [Store.read, if_true]
          rw [if_neg (by omega), below h.2 (by omega), hv]
        · rw [if_neg hx]
      · rw [if_neg hv]; simp only [Store.read]
    · split
      · rename_i hab; subst hab
        by_cases hv : v = 0
        · rw [if_pos hv]
          by_cases hx : x = a
          · subst hx; rw [if_pos rfl, below h.2 (by omega), hv]
          · rw [if_neg hx]; simp only [Store.read, if_neg hx]
        · rw [if_neg hv]; simp only [Store.read]
          by_cases hx : x = a <;> simp [hx]
      · simp only [Store.read]
        by_cases hx : x = b
        · rw [if_pos hx, if_neg (by omega), if_pos hx]
        · rw [if_neg hx, if_neg hx, step]

/-- A write keeps the canonical form, from a bound that it respects. -/
theorem Store.wfFrom_write {cells : List Host.Cell} : ∀ {lo : Nat} (_ : Store.wfFrom lo cells = true) {a : Nat}
    (_ : lo ≤ a) (v : Byte), Store.wfFrom lo (Store.write cells a v) = true := by
  induction cells with
  | nil =>
    intro lo _ a ha v
    simp only [Store.write]
    split
    · rfl
    · rename_i hv; simpa [Store.wfFrom, ha] using hv
  | cons c rest ih =>
    intro lo h a ha v
    obtain ⟨b, w⟩ := c
    simp only [Store.wfFrom, Bool.and_eq_true, decide_eq_true_eq] at h
    simp only [Store.write]
    have mono : ∀ k ≤ b + 1, Store.wfFrom k rest = true := by
      intro k hk
      cases rest with
      | nil => rfl
      | cons c2 r2 =>
        obtain ⟨b2, w2⟩ := c2
        have := h.2
        simp only [Store.wfFrom, Bool.and_eq_true, decide_eq_true_eq] at this ⊢
        exact ⟨⟨by omega, this.1.2⟩, this.2⟩
    split
    · by_cases hv : v = 0
      · simpa only [if_pos hv, Store.wfFrom, Bool.and_eq_true, decide_eq_true_eq] using h
      · simp only [if_neg hv, Store.wfFrom, Bool.and_eq_true, decide_eq_true_eq]
        exact ⟨⟨ha, by simpa using hv⟩, ⟨by omega, h.1.2⟩, h.2⟩
    · split
      · rename_i hab; subst hab
        by_cases hv : v = 0
        · rw [if_pos hv]; exact mono lo (by omega)
        · simp only [if_neg hv, Store.wfFrom, Bool.and_eq_true, decide_eq_true_eq]
          exact ⟨⟨ha, by simpa using hv⟩, h.2⟩
      · simp only [Store.wfFrom, Bool.and_eq_true, decide_eq_true_eq]
        exact ⟨h.1, ih h.2 (by omega) v⟩

/-- Every write keeps the canonical form. -/
theorem Store.wf_write {cells : List Host.Cell} (h : Store.wf cells = true) (a : Nat) (v : Byte) :
    Store.wf (Store.write cells a v) = true := Store.wfFrom_write h (Nat.zero_le a) v

/-- Every run of writes keeps the canonical form. -/
theorem Store.wf_writeRun (bytes : List Byte) : ∀ {cells : List Host.Cell} (_ : Store.wf cells = true) (a : Nat),
    Store.wf (Store.writeRun cells a bytes) = true := by
  induction bytes with
  | nil => intro cells h a; exact h
  | cons v rest ih => intro cells h a; exact ih (Store.wf_write h a v) (a + 1)

/-- A run of writes: each offset of the run reads its byte, every other offset reads as before. -/
theorem Store.read_writeRun (bytes : List Byte) : ∀ {cells : List Host.Cell} (_ : Store.wf cells = true) (a x : Nat),
    Store.read (Store.writeRun cells a bytes) x =
      if a ≤ x ∧ x < a + bytes.length then bytes.getD (x - a) 0 else Store.read cells x := by
  induction bytes with
  | nil => intro cells h a x; simp [Store.writeRun]
  | cons v rest ih =>
    intro cells h a x
    simp only [Store.writeRun, List.length_cons]
    rw [ih (Store.wf_write h a v) (a + 1) x, Store.read_write (lo := 0) h a x v]
    by_cases h1 : x = a
    · subst h1
      simp
    · by_cases h2 : a + 1 ≤ x ∧ x < a + 1 + rest.length
      · rw [if_pos h2, if_pos (by omega)]
        obtain ⟨k, hk⟩ : ∃ k, x - a = k + 1 := ⟨x - a - 1, by omega⟩
        rw [hk, show x - (a + 1) = k by omega]
        rfl
      · rw [if_neg h2, if_neg h1, if_neg (by omega)]

/-- What a run of reads gives at each place. -/
theorem Store.readRun_eq (cells : List Host.Cell) : ∀ (n a : Nat),
    Store.readRun cells a n = (List.range n).map fun k => Store.read cells (a + k) := by
  intro n
  induction n with
  | zero => intro a; rfl
  | succ n ih =>
    intro a
    rw [Store.readRun, ih, List.range_succ_eq_map, List.map_cons, List.map_map]
    congr 1
    apply List.map_congr_left
    intro k _
    simp only [Function.comp]
    congr 1
    omega

/-! ### The offsets listed -/

/-- A write lists no offset but its own and those listed before. -/
theorem Store.mem_write {cells : List Host.Cell} {a : Nat} {v : Byte} {c : Host.Cell}
    (h : c ∈ Store.write cells a v) : c ∈ cells ∨ c.1 = a := by
  induction cells with
  | nil =>
    simp only [Store.write] at h
    split at h
    · cases h
    · right; simp at h; rw [h]
  | cons d rest ih =>
    obtain ⟨b, w⟩ := d
    simp only [Store.write] at h
    split at h
    · split at h
      · exact Or.inl h
      · rcases List.mem_cons.mp h with e | e
        · right; rw [e]
        · exact Or.inl e
    · split at h
      · split at h
        · exact Or.inl (List.mem_cons_of_mem _ h)
        · rcases List.mem_cons.mp h with e | e
          · right; rw [e]
          · exact Or.inl (List.mem_cons_of_mem _ e)
      · rcases List.mem_cons.mp h with e | e
        · left; rw [e]; exact List.mem_cons_self
        · rcases ih e with f | f
          · exact Or.inl (List.mem_cons_of_mem _ f)
          · exact Or.inr f

/-- A run of writes lists no offset but its own and those listed before. -/
theorem Store.mem_writeRun (bytes : List Byte) : ∀ {cells : List Host.Cell} {a : Nat} {c : Host.Cell},
    c ∈ Store.writeRun cells a bytes → c ∈ cells ∨ (a ≤ c.1 ∧ c.1 < a + bytes.length) := by
  induction bytes with
  | nil => intro cells a c h; exact Or.inl h
  | cons v rest ih =>
    intro cells a c h
    simp only [List.length_cons]
    rcases ih h with e | e
    · rcases Store.mem_write e with f | f
      · exact Or.inl f
      · right; omega
    · right; omega

end Sys2Proof.Machine
end

