-- ==== Sys2Proof/Laws/Telemetry.lean ====
section
/-! SUPPORT. Which items a SUBSCRIBE can name (R169), and the flags byte of a notice (R180). -/

namespace Sys2Proof.Machine

open Sys2Proof.Safety

theorem checkItem_namedItem (item : Item) : checkItem (namedItem item) = some item := by
  cases item <;> simp [namedItem, checkItem, index]

/-- R169 step 1: the item that a request names. -/
theorem checkItem_eq_some (f : RawItem) (item : Item) : checkItem f = some item ↔ f = namedItem item := by
  refine ⟨fun h => ?_, fun h => h ▸ checkItem_namedItem item⟩
  cases f <;> simp only [checkItem, index] at h
  case channel ch idx =>
    by_cases a : ch < 16 <;> by_cases b : idx < 8 <;> simp [a, b] at h
    subst h; rfl
  case budgetUsed => cases h; rfl
  case outside => cases h
  all_goals
    split at h
    · cases h; rfl
    · cases h

/-- R169 step 1: a request that names no item. -/
theorem checkItem_eq_none (f : RawItem) : checkItem f = none ↔ ∀ item, f ≠ namedItem item := by
  constructor
  · intro h item e; rw [e, checkItem_namedItem] at h; cases h
  · intro h
    cases e : checkItem f with
    | none => rfl
    | some item => exact absurd ((checkItem_eq_some f item).1 e) (h item)

/-- R180: the flags byte of a notice carries OVERFLOW in its bit. -/
theorem noticeFlags_overflow (n : Notice) : (noticeFlags n).getLsbD Config.overflowBit.val = n.overflow := by
  unfold noticeFlags
  generalize Config.otherFlags _ = x
  generalize Config.overflowBit = k
  cases n.overflow <;> simp

end Sys2Proof.Machine
end

