-- ==== Sys2Proof/Laws/Transactions.lean ====
section
/-! SUPPORT. What a transaction of a chain ends with: when an answer fits its call, what is heard on a wire, the state
that an outcome is taken in, and which outcome ANSWER_TIMEOUT takes (R71 to R73); the records that a rollcall settles
(R78). -/

namespace Sys2Proof.Machine

open Sys2Proof.Safety

/-! ### Answers and wires (R71, R73) -/

/-- R71: the check of an answer's content is that the answer fits its call. -/
theorem contentFits_iff (c : Chain) (call : Call) (x : Answer) :
    contentFits call (callValueCount c call) x = true ↔ Fits c call x := by
  have count : callValueCount c call =
      (((addressed call).bind fun k => c.modules[k.val]?).map ModuleRecord.valueCount).getD 0 := by
    unfold callValueCount
    cases (addressed call).bind fun k => c.modules[k.val]? <;> rfl
  rw [count]
  cases call <;> cases x <;> simp [contentFits, Fits, addressed, and_assoc]
  exact fun _ => decide_eq_true_iff

/-- R71: a good answer is heard on a wire exactly when its copy there is good. -/
theorem hear_good (c : Chain) (call : Call) (a b : WireAnswer) (w : Wire) (x : Answer) :
    (hear c call a b).on w = .good x ↔ GoodCopy c call a b w x := by
  have one : ∀ (failed : Bool) (y : WireAnswer), heardOn call (callValueCount c call) failed y = .good x ↔
      (if failed then WireAnswer.silent else y) = .complete true x ∧ Fits c call x := by
    intro failed y
    rw [← contentFits_iff]
    unfold heardOn
    cases failed <;> cases y <;> simp
    rename_i ok z
    cases ok <;> simp
    constructor
    · intro h; split at h <;> simp_all
    · rintro ⟨rfl, h⟩; simp [h]
  cases w
  · exact one c.failedA a
  · exact one c.failedB b

/-- R73: nothing is heard on a wire exactly when no copy has come on it. -/
theorem hear_silent (c : Chain) (call : Call) (a b : WireAnswer) (w : Wire) :
    (hear c call a b).on w = .silent ↔ copyOn c a b w = .silent := by
  have one : ∀ (failed : Bool) (y : WireAnswer), heardOn call (callValueCount c call) failed y = .silent ↔
      (if failed then WireAnswer.silent else y) = .silent := by
    intro failed y
    unfold heardOn
    cases failed <;> cases y <;> simp
    split <;> simp
  cases w
  · exact one c.failedA a
  · exact one c.failedB b

/-! ### The outcome of a transaction (R72) -/

/-- R73: the chain in which an outcome is taken is the one before but for its wire, its marks and its state. -/
theorem chain_afterResult (p : PortId) (x : Result) (s : State) :
    ∃ failedA failedB selected st, (afterResult p x s).chain p =
      { s.chain p with inFlight := none, failedA := failedA, failedB := failedB, selected := selected, state := st } := by
  have swapped : ∀ c : Chain, ∃ failedA failedB selected,
      c.swapped = { c with failedA := failedA, failedB := failedB, selected := selected } := by
    intro c; unfold Chain.swapped; split <;> exact ⟨_, _, _, rfl⟩
  have same : ∃ failedA failedB selected st, (s.setChain p { s.chain p with inFlight := none }).chain p =
      { s.chain p with inFlight := none, failedA := failedA, failedB := failedB, selected := selected, state := st } := by
    rw [State.chain_setChain_self]; exact ⟨_, _, _, _, rfl⟩
  unfold afterResult
  dsimp only
  split
  · obtain ⟨a, b, w, e⟩ := swapped { s.chain p with inFlight := none }
    unfold swapWire
    dsimp only
    split
    · rw [chain_changeChain]
      simp only [State.modChain, State.chain_setChain_self]
      rw [e]; exact ⟨a, b, w, _, rfl⟩
    · simp only [State.modChain, State.chain_setChain_self]
      rw [e]; exact ⟨a, b, w, _, rfl⟩
  · exact same

/-- R72: ANSWER_TIMEOUT of a call that draws an answer, but for TRAIN, takes the outcome of that call. -/
theorem answerTimeout_outcome {s : State} {p : PortId} {call : Call} (a b : WireAnswer)
    (h : (s.chain p).inFlight = some call) (train : call ≠ .train) (reset : call ≠ .resetAll)
    (sync : ∀ stamp, call ≠ .sync stamp) :
    exec (.answerTimeout p a b) s = .next (handOutFrom p
      (let x := outcome s p call a b
       let w := afterResult p x s
       match call with
       | .rollcall k => rollcallOutcome p k x w
       | .poll k => pollOutcome p k x w
       | .setPage _ _ _ => if (s.chain p).state = .config then configOutcome p call x w else opOutcome p x w
       | .getPage _ _ => if (s.chain p).state = .config then configOutcome p call x w else opOutcome p x w
       | _ => s)) := by
  show Host.Outcome.next (answersHeard p true a b s) = _
  congr 1
  unfold answersHeard
  simp only [h, Bool.true_or, if_true]
  have swap : ∀ x, takeSwap p call x (s.modChain p fun c => { c with inFlight := none }) = afterResult p x s := by
    intro x
    unfold takeSwap afterResult
    cases x with
    | failed o => rfl
    | answered y z => cases z <;> simp [train] <;> rfl
  have result : outcome s p call a b = resultOf (s.chain p) (hear (s.chain p) call a b) := rfl
  cases call with
  | train => exact absurd rfl train
  | resetAll => exact absurd rfl reset
  | sync stamp => exact absurd rfl (sync stamp)
  | rollcall k => simp only [takeOutcome, swap, result]
  | poll k => simp only [takeOutcome, swap, result]
  | setPage k page bytes => simp only [takeOutcome, swap, result]
  | getPage k page => simp only [takeOutcome, swap, result]

/-! ### Rollcall (R78) -/

/-- R78: each module found is settled against the record at its position. -/
theorem settledRecords_eq (old : List ModuleRecord) (found : List Identity) :
    settledRecords old found = found.mapIdx fun i x => settledRecord old[i]? x := by
  induction found generalizing old with
  | nil => cases old <;> rfl
  | cons x xs ih => cases old <;> simp [settledRecords, ih, List.mapIdx_cons]

end Sys2Proof.Machine
end

