-- ==== Sys2Proof/Laws/Voices.lean ====
section
/-! SUPPORT. What the shared operations of voices do, each said once: the clip released (R141), the end of a voice
(R150), a fade-stop (R148), and which clips a range of the store touches (R138). -/

namespace Sys2Proof.Machine

open Sys2Proof.Safety

/-- R141: the clip that a voice holds is that of the CLIP cue it plays. -/
theorem heldClip_eq_some (vo : Voice) (n : ClipId) :
    heldClip vo = some n ↔
      ∃ start len rep gain next region, vo.cue = some ⟨.clip n start len rep gain, next, region⟩ := by
  unfold heldClip
  rcases vo.cue with _ | ⟨body, next, region⟩
  · simp
  · cases body <;> simp

/-- R141: a release changes clips alone. -/
theorem releaseClip_eq (v : VoiceId) (s : State) : releaseClip v s = { s with clips := (releaseClip v s).clips } := by
  unfold releaseClip
  cases heldClip (s.voice v) with
  | none => rfl
  | some c =>
    dsimp only
    unfold changeUse
    cases s.clip c <;> rfl

@[simp] theorem releaseClip_voice (v w : VoiceId) (s : State) : (releaseClip v s).voice w = s.voice w := by
  rw [releaseClip_eq]; rfl

/-- R141: a release lowers the use count of the clip held, and no other's. -/
theorem clip_releaseClip (v : VoiceId) (s : State) (n : ClipId) :
    (releaseClip v s).clip n =
      if heldClip (s.voice v) = some n then (s.clip n).map fun c => { c with inUse := c.inUse - 1 } else s.clip n := by
  unfold releaseClip changeUse
  split
  · rename_i c hc
    by_cases e : c = n
    · subst e
      rw [if_pos hc]
      split
      · rename_i x hx; rw [hx]; simp [State.setClip, State.clip]
      · rename_i hx; rw [hx]; rfl
    · rw [if_neg (by rw [hc]; simpa using e)]
      split
      · simp only [State.setClip, State.clip]
        exact Vector.getElem_set_ne _ _ (by intro q; exact e (Fin.ext q))
      · rfl
  · rename_i hc; rw [if_neg (by rw [hc]; simp)]

/-- R150 steps 1 and 2: the end of a voice, with what is to be reported. -/
theorem closeVoice_eq (v : VoiceId) (reason : VoiceEndReason) (link : Source) (s : State) :
    closeVoice v reason link s =
      (((releaseClip v s).setVoice v (quietVoice (s.voice v))).releaseSupply (.voice v),
        ⟨v, reason, link, (s.voice v).cueEntry, heldClip (s.voice v)⟩) := by
  unfold closeVoice State.modVoice
  rw [releaseClip_voice]

/-- R148: a fade-stop of a voice that is not PLAYING. -/
theorem fadeStop_of_ne {v : VoiceId} {s : State} (h : (s.voice v).state ≠ .playing) (emit : Event → State → State)
    (reason : VoiceEndReason) : fadeStop emit v reason s = s := by
  unfold fadeStop
  exact if_neg h

/-- R148, R150, R156: a fade-stop of a PLAYING voice at gain 0 ends it at once. -/
theorem fadeStop_silent {v : VoiceId} {s : State} (h : (s.voice v).state = .playing) (g : (s.voice v).gain = 0)
    (emit : Event → State → State) (reason : VoiceEndReason) :
    fadeStop emit v reason s =
      emit (.voiceEnd v reason)
        ((closeVoice v reason (s.ownerLink (.voice v)) s).1.place (s.ownerLink (.voice v))
          (.voiceEnd v reason (s.voice v).cueEntry (heldClip (s.voice v)) s.time)) := by
  unfold fadeStop
  dsimp only
  rw [if_pos h, if_pos g]
  unfold reportVoice endVoice
  rw [(quiet_closeVoice v reason (s.ownerLink (.voice v)) s).time]
  rfl

/-- R148: a fade-stop of a PLAYING voice that sounds. -/
theorem fadeStop_sounding {v : VoiceId} {s : State} (h : (s.voice v).state = .playing) (g : (s.voice v).gain ≠ 0)
    (emit : Event → State → State) (reason : VoiceEndReason) :
    fadeStop emit v reason s =
      s.setVoice v
        { s.voice v with
          state := .fading, target := 0, fadeReason := some reason, fadeLink := some (s.ownerLink (.voice v)) } := by
  unfold fadeStop
  dsimp only
  rw [if_pos h, if_neg g]

/-- R138 step 4: a byte of the range lies within a clip whose in-use count is above 0. -/
theorem touchesHeldClip_iff (s : State) (base n : Nat) :
    touchesHeldClip s base n = true ↔
      ∃ k c a, s.clip k = some c ∧ 0 < c.inUse ∧ c.base ≤ a ∧ a < c.base + c.length ∧ base ≤ a ∧ a < base + n := by
  unfold touchesHeldClip
  rw [List.any_eq_true]
  constructor
  · rintro ⟨x, hx, h⟩
    rw [Vector.mem_toList_iff, Vector.mem_iff_getElem] at hx
    obtain ⟨i, hi, e⟩ := hx
    cases x with
    | none => simp at h
    | some c =>
      simp only [Bool.and_eq_true, decide_eq_true_eq] at h
      exact ⟨⟨i, hi⟩, c, max base c.base, e, h.1, by omega, by omega, by omega, by omega⟩
  · rintro ⟨k, c, a, e, h1, h2, h3, h4, h5⟩
    refine ⟨some c, ?_, ?_⟩
    · rw [Vector.mem_toList_iff, Vector.mem_iff_getElem]; exact ⟨k.val, k.isLt, e⟩
    · simp only [Bool.and_eq_true, decide_eq_true_eq]; exact ⟨h1, by omega⟩

end Sys2Proof.Machine
end

