-- ==== Sys2Proof/Tests/Slice0.lean ====
section
/-! SUPPORT. The model's own tests: ill-formed commands that WellFormed refuses, single steps on small states with the
values the spec gives, and for each obligation with hypotheses a state and operands that meet them. -/

namespace Sys2Proof.Tests

set_option Elab.async false

open Sys2Proof.Machine Sys2Proof.Safety

/-! ### Small states -/

/-- The state after a command. -/
def after (c : Instr) (s : State) : State :=
  match exec c s with
  | .next t => t
  | .fault _ => State.reset
  | .refused _ => State.reset

/-- The reply that waits last on the program link. -/
def answer (s : State) : Option Reply := s.program.waiting.getLast?.map WaitingReply.reply

def up (s : State) : State := { s with linkUp := true }
def mine (r : Resource) (s : State) : State := s.setClaim r ⟨some .program, none⟩
def theirs (r : Resource) (s : State) : State := s.setClaim r ⟨some .tablet, some ⟨500, 500⟩⟩
def motorIn (st : MotorState) (s : State) : State := s.modMotor 0 fun mo => { mo with state := st }

def goForward : Segment :=
  { kind := .move, target := some 1000, speed := 500, accel := 2000, decel := 2000, duration := none
    condition := .none, endAction := .hold, tag := 7 }

def timed (e : EndAction) : Segment :=
  { goForward with kind := .speed, target := none, duration := some 10, endAction := e }

def onSample : Segment := { goForward with condition := .channel 0 0 .above 5 }

/-- A segment that waits for a channel that is UNMAPPED after reset. -/
theorem gone_onSample : Gone State.reset onSample := ⟨0, 0, .above, 5, rfl, Or.inl (by decide +kernel)⟩

theorem not_gone_goForward (s : State) : ¬Gone s goForward := by
  rintro ⟨_, _, _, _, h, _⟩
  cases h

def activeOf (seg : Segment) : Active := activate seg 0 (startDirection seg 0)

/-- M0 runs a segment, with others behind it. -/
def running (seg : Segment) (rest : List Segment) (s : State) : State :=
  s.modMotor 0 fun mo => { mo with state := .running, active := some (activeOf seg), queue := rest }

def rawMove : RawSegment :=
  { kind := .known .move, otherPresence := false, target := some 1000, speed := 500, accel := 2000, decel := 2000
    duration := none, condition := .none, endAction := .known .hold, tag := 7 }

def record (st : ModuleState) : ModuleRecord :=
  { kind := 2, model := 1, valueCount := 1, settleTime := 5, format := some (Vector.replicate 8 1)
    range := some (Vector.replicate 8 2), rate := some (Vector.replicate 8 3), start := some (Vector.replicate 8 0)
    divider := 1, countdown := 1, state := st, settleLeft := 3, bucket := 0, misses := 0, failing := false
    last := none }

/-- Chain 0 is ACTIVE with one module, its wire idle. -/
def live (st : ModuleState) (s : State) : State :=
  s.setChain 0 { Chain.reset with state := .active, inFlight := none, modules := [record st], syncLeft := some 40 }

/-- Chain 0 with its wire carrying a call. -/
def calling (c : Call) (s : State) : State := s.modChain 0 fun x => { x with inFlight := some c }

def chainIn (st : ChainState) (s : State) : State := s.modChain 0 fun x => { x with state := st }

def single : Channel :=
  { Channel.unmapped with state := .single, primary := some ⟨0, 0⟩, kind := 2, valueCount := 1, staleAt := some 9 }

def watchAbove (src : Source) : Watch :=
  { channel := 0, index := 0, test := .above 10, hysteresis := 2, fireOnLoss := true, state := .armed
    reference := none, creator := src, fires := 3 }

def notifyOn (src : Source) : Reaction :=
  { trigger := .segmentEnd 0 none, action := .notify 0x21#8, mode := .once, enabled := true, creator := src
    fires := 0, skips := 0 }

def tone : Cue := ⟨.tone 440 100 .square 512, .finish, .program⟩

def playing (s : State) : State :=
  s.modVoice 0 fun v =>
    { v with
      state := .playing, cueEntry := some 0, cue := some ⟨tone.body, .finish, none⟩, position := 1600, gain := 100
      target := 512, ceiling := 512 }

def clipOf (src : Source) (n : Nat) : Clip :=
  { base := 0, length := 16, format := .pcm8At8k, creator := src, inUse := n }

def subOf (link : Source) (due : Bool) (latency : Nat) : Subscription :=
  { link := link, item := .budgetUsed, period := 50, latency := latency, priority := 3, delta := none, lastSent := none
    due := due, dueSince := 0, coalesced := false, periodLeft := 50 }

def someReply : WaitingReply := ⟨0, 0x82#8, 9, Reply.ok false .empty⟩

/-! ### WellFormed refuses ill-formed commands -/

theorem test_wf_refuses_numbers_beyond_their_fields :
    (Instr.motorRead .program 0 256).wf = false ∧ (Instr.clearFault .program 0 256).wf = false ∧
      (Instr.zero .program 0 256 0).wf = false ∧ (Instr.halt .program 0 256 .outside).wf = false ∧
      (Instr.chainRestart .program 0 256 .outside).wf = false ∧ (Instr.chainRead .program 0 256).wf = false ∧
      (Instr.moduleRead .program 0 0 256).wf = false ∧ (Instr.modulePageRead .program 0 0 1 256).wf = false ∧
      (Instr.modulePageWrite .program 0 0 256 0 (Vector.replicate 8 0)).wf = false ∧
      (Instr.mapClear .program 0 256).wf = false ∧ (Instr.channelRead .program 0 256).wf = false ∧
      (Instr.watchClear .program 0 256).wf = false ∧ (Instr.reactClear .program 0 256).wf = false ∧
      (Instr.reactRead .program 0 (.watch 256)).wf = false ∧
      (Instr.reactRead .program 0 (.reaction 256)).wf = false ∧ (Instr.clipRemove .program 0 256).wf = false ∧
      (Instr.cueClear .program 0 256).wf = false ∧ (Instr.play .program 0 0 256).wf = false ∧
      (Instr.stop .program 0 256 .outside).wf = false ∧ (Instr.unsubscribe .program 0 256).wf = false ∧
      (Instr.storeRead .program 0 0 256).wf = false ∧ (Instr.storeRead .program 0 4294967296 1).wf = false ∧
      (Instr.storeWrite .program 0 4294967296 [0]).wf = false ∧
      (Instr.storeWrite .program 0 0 (List.replicate 247 0)).wf = false := by decide +kernel

theorem test_wf_refuses_values_beyond_their_fields :
    (Instr.unknownKind .program 0 0x01#8).wf = false ∧
      (Instr.claim .program 0 ⟨[], 65536⟩).wf = false ∧ (Instr.take .program 0 ⟨[], 65536⟩).wf = false ∧
      (Instr.controlTick 0 2147483648).wf = false ∧ (Instr.budgetSet .program 0 4294967296).wf = false ∧
      (Instr.masterSet .program 0 (-2147483649)).wf = false ∧
      (Instr.voiceGain .program 0 0 4294967296).wf = false ∧
      (Instr.motorSet .program 0 0 { (default : MotorSetFields) with kp := some 65536 }).wf = false ∧
      (Instr.motorSet .program 0 0 { (default : MotorSetFields) with dutyLimit := some 4294967296 }).wf = false ∧
      (Instr.chainSet .program 0 0 { (default : ChainSetFields) with divider4 := some 4294967296 }).wf = false := by
  decide +kernel

theorem test_wf_refuses_segments_and_answers :
    (Instr.seg .program 0 0 { rawMove with speed := 32768 }).wf = false ∧
      (Instr.seg .program 0 0 { rawMove with accel := 65536 }).wf = false ∧
      (Instr.seg .program 0 0 { rawMove with decel := 65536 }).wf = false ∧
      (Instr.seg .program 0 0 { rawMove with target := some 2147483648 }).wf = false ∧
      (Instr.seg .program 0 0 { rawMove with duration := some 4294967296 }).wf = false ∧
      (Instr.seg .program 0 0 { rawMove with condition := .channel 256 0 .outside 0 }).wf = false ∧
      (Instr.seg .program 0 0 { rawMove with condition := .channel 0 0 .outside 2147483648 }).wf = false ∧
      (Instr.transactionEnd 0 (.complete true (.rollcall 256 0 0 1 0 true)) .silent).wf = false ∧
      (Instr.transactionEnd 0 .silent (.complete true (.rollcall 1 0 0 1 65536 true))).wf = false ∧
      (Instr.answerTimeout 0 (.complete true (.pageAck 1 256)) .silent).wf = false ∧
      (Instr.answerTimeout 0 (.complete true (.pageAnswer 256 0 (Vector.replicate 8 0))) .silent).wf = false ∧
      (Instr.answerTimeout 0 (.complete true (.sample 1 0 (List.replicate 9 0) false)) .silent).wf = false := by
  decide +kernel

theorem test_wf_refuses_tables :
    (Instr.mapSet .program 0 { (default : MapFields) with channel := 256 }).wf = false ∧
      (Instr.mapSet .program 0 { (default : MapFields) with num := 32768 }).wf = false ∧
      (Instr.mapSet .program 0 { (default : MapFields) with den := 4294967296 }).wf = false ∧
      (Instr.mapSet .program 0 { (default : MapFields) with spare := some (0, 256) }).wf = false ∧
      (Instr.watchSet .program 0 { (default : WatchFields) with entry := .number 256 }).wf = false ∧
      (Instr.watchSet .program 0 { (default : WatchFields) with hysteresis := 4294967296 }).wf = false ∧
      (Instr.reactSet .program 0 { (default : ReactFields) with trigger := .claimEnd 256 }).wf = false ∧
      (Instr.reactSet .program 0 { (default : ReactFields) with action := .play 0 256 }).wf = false ∧
      (Instr.windowSet .program 0 { (default : WindowFields) with base := 4294967296 }).wf = false ∧
      (Instr.clipDefine .program 0 { (default : ClipFields) with length := 4294967296 }).wf = false ∧
      (Instr.cueSet .program 0 { (default : CueFields) with body := .clip 0 0 0 256 0 }).wf = false ∧
      (Instr.cueSet .program 0 { (default : CueFields) with next := .entry 256 }).wf = false ∧
      (Instr.subscribe .program 0 { (default : SubscribeFields) with priority := 256 }).wf = false ∧
      (Instr.subscribe .program 0 { (default : SubscribeFields) with item := .channel 256 0 }).wf = false := by
  decide +kernel

/-- A selector that names neither a reaction nor a watch entry is well formed; its reply is BAD_VALUE. -/
theorem test_wf_takes_a_selector_outside : (Instr.reactRead .program 0 .outside).wf = true := by decide +kernel

/-! ### Worked values of the spec -/

/-- R177: the CRC over 02h, 01h and 00h runs 0Eh, 2Dh and C3h. -/
theorem test_crc_of_the_ident_frame :
    crc8 [0x02#8] = 0x0E#8 ∧ crc8 [0x02#8, 0x01#8] = 0x2D#8 ∧ crc8 [0x02#8, 0x01#8, 0x00#8] = 0xC3#8 ∧
      frameOf 0x01#8 0x00#8 [] = [0xA5#8, 0x02#8, 0x01#8, 0x00#8, 0xC3#8] := by decide +kernel

/-- R14: a motor holding at 1000 with its position at 1050, given ZERO with value 0. -/
theorem test_zero_keeps_the_position_error :
    let s := (mine (.motor 0) State.reset).modMotor 0 fun mo =>
      { mo with state := .holding, position := 1050, refPos := 1000 }
    ((after (.zero .program 0 0 0) s).motor 0).position = 0 ∧
      ((after (.zero .program 0 0 0) s).motor 0).refPos = BitVec.ofInt 32 (-50) := by decide +kernel

/-- R43: one count of difference gives 62 counts/s, two give 125, and −3 give −187. -/
theorem test_measured_speed : measuredSpeed 1 0 = 62 ∧ measuredSpeed 2 0 = 125 ∧ measuredSpeed 0 3 = -187 := by
  decide +kernel

/-- R2: a count up from the greatest position wraps to the least. -/
theorem test_position_wraps :
    let s := State.reset.modMotor 0 fun mo => { mo with position := 0x7FFFFFFF#32 }
    ((after (.encoderStep 0 true false) s).motor 0).position = 0x80000000#32 ∧
      ((after (.encoderStep 0 true true) s).motor 0).position = 0x7FFFFFFF#32 := by decide +kernel

/-! ### Hypotheses that are met: links and claims -/

/-- The program link with one slot left, the last, and with none. -/
def oneSlot (s : State) : State :=
  { s with program := { s.program with slots := (Vector.replicate 8 (some ⟨0x01#8, 0⟩)).set 7 none } }

def noSlot (s : State) : State :=
  { s with program := { s.program with slots := Vector.replicate 8 (some ⟨0x01#8, 0⟩) } }

def receiving (x : Assembler) (s : State) : State := { s with program := { s.program with rx := x } }

def sending (f : TxFrame) (s : State) : State := { s with program := { s.program with tx := some f } }

def subscribed (x : Subscription) (s : State) : State := { s with time := 100, subs := Vector.replicate 24 (some x) }

theorem no_sub_after_reset (n : SubId) : State.reset.sub n = none := by revert n; decide +kernel

theorem witness_EveryRequestIsAnswered :
    requestOf (.motorRead .program 5 6) = some (.program, 5, .motorRead) ∧
      RequestKind.motorRead ≠ .modulePageWrite ∧ RequestKind.motorRead ≠ .modulePageRead ∧
      Accepts State.reset .program 0 ∧ Accepts (oneSlot State.reset) .program 7 ∧
      Accepts (up State.reset) .tablet 0 := by unfold Accepts; decide +kernel

theorem witness_IdleStepPassesOneMillisecond :
    State.reset.pending = [] ∧ (theirs (.motor 0) State.reset).pending = [] := by
  decide +kernel

theorem witness_LinkUpStartsAndDropsTablet :
    State.reset.linkUp = false ∧ (up (theirs (.motor 0) State.reset)).linkUp = true ∧
      (up (theirs (.motor 0) State.reset)).owner (.motor 0) = some .tablet := by decide +kernel

theorem witness_AssemblerTakesBytes :
    (Source.tablet = .tablet ∧ State.reset.linkUp = false) ∧ Sends State.reset .program ∧
      (State.reset.link .program).rx = .hunting ∧
      ((receiving .awaitLen State.reset).link .program).rx = .awaitLen ∧
      ((receiving (.collecting 2 [1]) State.reset).link .program).rx = .collecting 2 [1] ∧
      [(1 : Byte)].length < (2 : Byte).toNat ∧
      ((receiving (.collecting 2 [1, 0]) State.reset).link .program).rx = .collecting 2 [1, 0] ∧
      (2 : Byte).toNat ≤ [(1 : Byte), 0].length ∧ crc8 [2, 1, 0] ≠ 0xC2#8 ∧
      (List.replicate 26 (0 : Byte)).length = 26 ∧ ([0] : List Byte).length ≠ 0 ∧
      (bodyLength .ident).2 < [(0 : Byte)].length ∧ ([] : List Byte).length < (bodyLength .motorRead).1 ∧
      Accepts State.reset .program 0 ∧ (State.reset.link .program).tx = none ∧
      (State.reset.link .program).readyIn = true ∧
      ((sending (.telemetry ⟨0, []⟩) State.reset).link .program).tx = some (.telemetry ⟨0, []⟩) ∧
      (∀ n ∈ [3, 4, 5, 12, 14, 23, 37], (List.replicate n (0 : Byte)).length = n) := by
  unfold Accepts Sends; decide +kernel

theorem witness_RequestsTurnedAway :
    (∀ k, RequestKind.code k ≠ 0x00#8) ∧ (∀ k, RequestKind.code k ≠ 0x43#8) ∧
      requestOf (.ident .tablet 1) = some (.tablet, 1, .ident) ∧ State.reset.takesFrames .tablet = false ∧
      requestOf (.ident .program 1) = some (.program, 1, .ident) ∧
      (∀ i : Fin 8, ((noSlot State.reset).link .program).slots[i] ≠ none) ∧
      requestOf (.reset .tablet 1) = some (.tablet, 1, .reset) ∧
      requestOf (.masterSet .tablet 1 0) = some (.tablet, 1, .masterSet) ∧ Accepts (up State.reset) .tablet 0 := by
  refine ⟨fun k => by cases k <;> decide, fun k => by cases k <;> decide, ?_⟩
  unfold Accepts
  decide +kernel

theorem witness_OwnerOnlyRefusals :
    Accepts State.reset .program 0 ∧ (6 : Nat) ≤ 6 ∧ (4 : Nat) ≤ 4 ∧ State.reset.owner (.motor 5) ≠ some .program ∧
      State.reset.owner (.voice 3) ≠ some .program := by unfold Accepts; decide +kernel

theorem witness_WholeFrameIsTakenOnce :
    (List.replicate 250 (0xA5#8 : Byte)).length ≤ 250 ∧ Sends State.reset .program ∧
      (State.reset.link .program).rx = .hunting ∧ Sends (up State.reset) .tablet ∧
      ((up State.reset).link .tablet).rx = .hunting := by unfold Sends; decide +kernel

theorem witness_FrameStartSendsFrames_choice :
    ¬CanStart (sending (.reply someReply) State.reset) .program ∧ ¬CanStart State.reset .tablet ∧
      CanStart { State.reset with program := { State.reset.program with waiting := [someReply] } } .program ∧
      CanStart State.reset .program ∧ (State.reset.link .program).waiting = [] ∧
      ¬UrgentDue State.reset .program ∧
      (State.reset.link .program).notices = ⟨false, .started .powerOn 0⟩ :: [] := by
  refine ⟨?_, ?_, ?_, ?_, ?_, ?_, ?_⟩
  · unfold CanStart Sends; decide +kernel
  · unfold CanStart Sends; decide +kernel
  · unfold CanStart Sends; decide +kernel
  · unfold CanStart Sends; decide +kernel
  · decide +kernel
  · rintro ⟨n, x, ⟨h, _⟩, _⟩
    rw [no_sub_after_reset n] at h
    cases h
  · decide +kernel

theorem witness_FrameStartSendsFrames_telemetry :
    let s := subscribed (subOf .program true 100) (up State.reset)
    let quiet := subscribed (subOf .tablet true 0) (up State.reset)
    CanStart s .program ∧ UrgentDue s .program ∧ CanStart quiet .tablet ∧ (quiet.link .tablet).waiting = [] ∧
      (quiet.link .tablet).notices = [] ∧ Due quiet .tablet 23 (subOf .tablet true 0) ∧
      CanStart (up State.reset) .tablet ∧ ((up State.reset).link .tablet).notices = [] ∧
      Due s .program 12 (subOf .program true 100) ∧ Urgent s.time (subOf .program true 100) ∧
      (12 : SubId) ∉ (buildFrame .program s).2.items.map SentItem.id := by
  refine ⟨?_, ⟨0, subOf .program true 100, ?_, ?_⟩, ?_⟩
  · unfold CanStart Sends; decide +kernel
  · unfold Due; decide +kernel
  · unfold Urgent; decide +kernel
  · unfold CanStart Sends Due Urgent; decide +kernel

/-- The program link sends a frame, READY-in low, so many of its bytes begun. -/
def pausedAt (n : Nat) (f : TxFrame) : State :=
  { State.reset with program := { State.reset.program with readyIn := false, tx := some f, begun := n } }

theorem witness_FrameSentFreesItsSlot :
    (State.reset.link .program).tx = none ∧ (State.reset.link .program).readyIn = true ∧
      ((sending (.notice ⟨false, .started .powerOn 0⟩) State.reset).link .program).tx =
        some (.notice ⟨false, .started .powerOn 0⟩) ∧
      ((sending (.telemetry ⟨0, []⟩) State.reset).link .program).tx = some (.telemetry ⟨0, []⟩) ∧
      ((sending (.reply someReply) State.reset).link .program).tx = some (.reply someReply) ∧
      someReply.kind = 0x82#8 ∧ someReply.reply.status = .ok ∧
      { someReply with reply := Reply.refuse .badLength }.reply.status ≠ .ok ∧
      ((pausedAt 9 (.telemetry ⟨0, []⟩)).link .program).begun < (frameBytes (.telemetry ⟨0, []⟩)).length ∧
      (frameBytes (.telemetry ⟨0, []⟩)).length ≤ ((pausedAt 10 (.telemetry ⟨0, []⟩)).link .program).begun := by
  decide +kernel

/-- R176: a fall of READY-in inside a frame keeps it, and its end waits for the rise. -/
theorem test_ready_in_pauses_a_frame :
    (after (.frameSent .program) (pausedAt 9 (.telemetry ⟨0, []⟩))).program.tx = some (.telemetry ⟨0, []⟩) ∧
      (after (.frameSent .program)
        (after (.readyInChange .program true) (pausedAt 9 (.telemetry ⟨0, []⟩)))).program.tx = none ∧
      (after (.frameSent .program) (pausedAt 10 (.telemetry ⟨0, []⟩))).program.tx = none := by decide +kernel

theorem witness_ClaimIsAllOrNothing :
    Accepts State.reset .program 0 ∧ State.reset.owner (.motor 0) ≠ some .tablet ∧
      (theirs (.motor 0) State.reset).owner (.motor 0) = some (otherSource .program) ∧
      (∀ r ∈ allResources, State.reset.owner r ≠ some (otherSource .program)) := by unfold Accepts; decide +kernel

theorem witness_ReleaseAndRenew_and_Take :
    Accepts (theirs (.voice 3) (mine (.motor 0) State.reset)) .program 0 ∧ allResources ≠ [] ∧
      (theirs (.voice 3) (mine (.motor 0) State.reset)).owner (.motor 0) = some .program ∧
      (theirs (.voice 3) (mine (.motor 0) State.reset)).owner (.voice 3) = some .tablet := by
  unfold Accepts; decide +kernel

theorem witness_LeaseExpiryEndsClaim :
    (State.reset.claim (.motor 0)).lease = none ∧ ((theirs (.motor 0) State.reset).claim (.motor 0)).lease ≠ none ∧
      ((theirs (.voice 3) State.reset).claim (.voice 3)).lease ≠ none := by decide +kernel

/-! ### Hypotheses that are met: motors and the supply -/

theorem witness_MotorSetMakesFieldsPending :
    let s := mine (.motor 0) State.reset
    Accepts s .program 0 ∧ s.owner (.motor 0) = some .program ∧
      ((default : MotorSetFields).polarity = none ∧ Polarity.normal = (s.motor 0).config.polarity) ∧
      (default : MotorSetFields).lossAction ≠ some .outside ∧ Polarity.reversed ≠ (s.motor 0).config.polarity ∧
      ((s.motor 0).state ≠ .running ∧ (s.motor 0).state ≠ .holding) ∧
      ((motorIn .running s).motor 0).state = .running ∧ Accepts (motorIn .running s) .program 0 := by
  unfold Accepts; decide +kernel

theorem witness_ZeroAndClearFault :
    let s := mine (.motor 0) State.reset
    Accepts s .program 0 ∧ s.owner (.motor 0) = some .program ∧ ((motorIn .running s).motor 0).state = .running ∧
      (s.motor 0).state ≠ .running ∧ (s.motor 0).state ≠ .fault ∧ ((motorIn .fault s).motor 0).state = .fault := by
  unfold Accepts; decide +kernel

theorem witness_SegJoinsQueue :
    let s := mine (.motor 0) State.reset
    let full := s.modMotor 0 fun mo => { mo with queue := List.replicate 8 goForward }
    let seven := s.modMotor 0 fun mo => { mo with queue := List.replicate 7 goForward }
    Accepts s .program 0 ∧ s.owner (.motor 0) = some .program ∧ checkSegment { rawMove with accel := 0 } = none ∧
      checkSegment rawMove = some (goForward, false) ∧
      checkSegment { rawMove with speed := 4001 } = some ({ goForward with speed := 4000 }, true) ∧
      checkSegment { rawMove with target := some 10000001 } = none ∧
      checkSegment { rawMove with condition := .channel 0 0 (.known .above) 5 } = some (onSample, false) ∧
      checkSegment { rawMove with condition := .channel 15 7 (.known .below) (-1000000001) } =
        some ({ goForward with condition := .channel 15 7 .below (-1000000000) }, true) ∧
      checkSegment { rawMove with condition := .channel 16 0 (.known .above) 5 } = none ∧
      checkSegment { rawMove with duration := some 1 } = none ∧ rawMove.kind = .known .move ∧
      ((motorIn .fault s).motor 0).state = .fault ∧ (s.channel 0).state = .unmapped ∧
      ((s.setChannel 0 { single with valueCount := 0 }).channel 0).valueCount ≤ 0 ∧
      0 < ((s.setChannel 0 single).channel 0).valueCount ∧ 8 ≤ (full.motor 0).queue.length ∧
      (seven.motor 0).queue.length < 8 := by unfold Accepts; decide +kernel

theorem witness_HaltStopsMotor :
    let s := running goForward [] (mine (.motor 0) State.reset)
    Accepts s .program 0 ∧ s.owner (.motor 0) = some .program ∧ (s.motor 0).state ≠ .fault ∧
      ((motorIn .fault s).motor 0).state = .fault ∧ ((motorIn .idle s).motor 0).state = .idle ∧
      (s.motor 0).active = some (activeOf goForward) ∧ (State.reset.motor 0).active = none ∧ (0 : MotorId) ≠ 1 := by
  unfold Accepts; decide +kernel

theorem witness_TickAtRestMeasures :
    let queued := State.reset.modMotor 0 fun mo => { mo with queue := [goForward] }
    (State.reset.motor 0).state = .idle ∧ (State.reset.motor 0).queue = [] ∧
      (queued.motor 0).queue = [goForward] ∧ ¬Gone queued goForward ∧
      ((motorIn .holding queued).motor 0).state = .holding ∧ goForward.target = some 1000 ∧
      (0 : Int).natAbs ≤ 4000 ∧ goForward.speed.natAbs ≤ 4000 ∧ (0 : Int) ≤ (State.reset.motor 0).accFrac ∧
      ((State.reset.modMotor 0 fun mo => { mo with queue := [onSample, goForward] }).motor 0).queue =
        [onSample, goForward] ∧ Gone State.reset onSample :=
  ⟨by decide +kernel, by decide +kernel, by decide +kernel, not_gone_goForward _, by decide +kernel, by decide +kernel,
    by decide +kernel, by decide +kernel, by decide +kernel, by decide +kernel, gone_onSample⟩

theorem witness_TickHoldingDrives :
    let s := motorIn .holding State.reset
    (s.motor 0).state = .holding ∧ (s.motor 0).active = none ∧ (s.motor 0).queue = [] ∧
      min 8000 (3500 : Int).natAbs ≤ (adopted (s.motor 0).config (s.motor 0).pendingConfig).tripCurrent ∧
      ¬((adopted (s.motor 0).config (s.motor 0).pendingConfig).stallTime ≤ (s.motor 0).stallMs + 1) := by
  decide +kernel

/-- A motor as a tick's first stages leave it: configuration taken, and measured without current. -/
def measured (mo : Motor) : Motor :=
  { mo with
    config := adopted mo.config mo.pendingConfig, pendingConfig := .empty
    vmeas := max (-1000000) (min 1000000 ((Word.diff mo.position (mo.history.headD mo.position) * 125).tdiv 2))
    history := mo.history.tail ++ [mo.position], iAvg := 0, overCount := 0 }

theorem witness_TickRunningDrives :
    let at' := fun (seg : Segment) (ph : Phase) => { activeOf seg with phase := ph, target := some 0 }
    let next := fun (a : Active) => (Motor.stepReference (measured ((running goForward [] State.reset).motor 0)) a)
    let started := next (activeOf goForward)
    let hot := running goForward [goForward] State.reset
    let hot := hot.modMotor 0 fun mo => { mo with overCount := 1 }
    ((running goForward [] State.reset).motor 0).active = some (activeOf goForward) ∧
      started.active.map Active.phase = some .accel ∧ (started.active.bind Active.target).isSome ∧
      (next (activeOf (timed .hold))).active.map Active.elapsed = some 0 ∧ durationRuns (activeOf (timed .hold)) ∧
      (next (at' goForward .decel)).refPos = 0 ∧
      (next (at' goForward .decel)).active = some (at' goForward .decel) ∧
      (next (at' goForward .through)).refPos = 0 ∧
      (next (at' goForward .through)).active = some (at' goForward .through) ∧
      (measured (State.reset.motor 0)).stallMs + 1 < (measured (State.reset.motor 0)).config.stallTime ∧
      (hot.motor 0).state = .running ∧ (hot.motor 0).config.tripCurrent < min 8000 (9000 : Int).natAbs ∧
      1 ≤ (hot.motor 0).overCount ∧ ((motorIn .holding State.reset).motor 0).active = none ∧
      ((running goForward [onSample] State.reset).motor 0).queue = [onSample] := by decide +kernel

theorem witness_TripAndStallEndMotion :
    let s := running { goForward with condition := .stall } [goForward] State.reset
    ((s.motor 0).state = .running ∧ (s.motor 0).active = some (activeOf { goForward with condition := .stall })) ∧
      ((running goForward [] State.reset).motor 0).active = some (activeOf goForward) ∧
      goForward.condition ≠ .stall ∧ (State.reset.motor 0).state ≠ .running ∧
      ((motorIn .holding State.reset).motor 0).state = .holding ∧
      ((motorIn .holding State.reset).motor 0).active = none := by decide +kernel

theorem witness_DurationExpiryEndsSegment :
    let s := fun e rest => running (timed e) rest State.reset
    let moving := (s .blend [goForward]).modMotor 0 fun mo => { mo with vRef := 500 }
    goForward.duration = none ∧
      ((timed .hold).kind = .speed ∧ (timed .hold).duration ≠ none ∧ (activeOf (timed .hold)).phase ≠ .stopping) ∧
      ((s .hold []).motor 0).active = some (activeOf (timed .hold)) ∧ ((s .hold []).motor 0).state = .running ∧
      (timed .hold).endAction ≠ .blend ∧
      ((timed .blend).kind = .speed ∧ (timed .blend).duration ≠ none ∧ (activeOf (timed .blend)).phase ≠ .stopping) ∧
      (timed .blend).endAction = .blend ∧ ((s .blend []).motor 0).queue = [] ∧ ((s .blend []).motor 0).vRef = 0 ∧
      (moving.motor 0).vRef ≠ 0 ∧ (moving.motor 0).queue = [goForward] ∧
      ((s .blend [onSample]).motor 0).queue = [onSample] ∧ onSample.kind = .move := by decide +kernel

/-- A head that goes the same way, one that goes back, none, and one that names an UNMAPPED channel. -/
theorem witness_DurationExpiry_at_a_head :
    let mo := fun queue => (running (timed .blend) queue State.reset).motor 0
    HeadFollows (mo [goForward]) (activeOf (timed .blend)) ∧
      ¬HeadFollows (mo [{ goForward with target := some (-1000) }]) (activeOf (timed .blend)) ∧
      ¬HeadFollows (mo []) (activeOf (timed .blend)) ∧ HeadFollows (mo [onSample]) (activeOf (timed .blend)) ∧
      ¬Gone State.reset goForward ∧ Gone State.reset onSample := by
  refine ⟨?_, ?_, ?_, ?_, not_gone_goForward _, gone_onSample⟩
  all_goals rw [← blendTest_iff]; decide +kernel

/-- R34: a segment that starts on an UNMAPPED channel ends at once with SENSOR_LOST, in BRAKED. -/
theorem test_start_of_a_segment_without_its_source :
    let s := State.reset.modMotor 0 fun mo => { mo with queue := [onSample, goForward] }
    let t := after (.controlTick 0 0) s
    (t.motor 0).state = .braked ∧ (t.motor 0).queue = [] ∧
      t.program.notices.getLast? = some ⟨false, .segmentEnd 0 7 .sensorLost false 0 1 0⟩ := by decide +kernel

/-- R20: a HOLD segment's rates stay as offered, and 0 is refused. -/
theorem test_rates_of_a_hold_segment :
    let hold := { rawMove with kind := .known .hold, target := none, accel := 1, decel := 65535 }
    checkSegment hold =
        some ({ goForward with kind := .hold, target := none, accel := 1, decel := 65535 }, false) ∧
      checkSegment { hold with accel := 0 } = none ∧
      checkSegment { rawMove with accel := 1 } = some ({ goForward with accel := 100 }, true) := by decide +kernel

theorem witness_BudgetSetScalesGrants :
    let held := State.reset.askSupply (.motor 0) 3000
    Accepts held .program 0 ∧ held.governor.used ≤ 8000 ∧ (max 500 (min 8000 (499 : Int))).toNat < held.governor.used ∧
      0 < (held.governor.supply (.motor 0)).grant ∧ held.governor.used ≤ held.governor.budget ∧
      (Resource.voice 0) ≠ .motor 0 := by unfold Accepts; decide +kernel

/-! ### Hypotheses that are met: reads, chains and modules -/

theorem witness_requests_after_reset :
    Accepts State.reset .program 0 ∧ Accepts (up State.reset) .tablet 0 ∧ (6 : Nat) ≤ 6 ∧ (4 : Nat) ≤ 4 ∧
      (16 : Nat) ≤ 16 ∧ (24 : Nat) ≤ 24 ∧ (48 : Nat) ≤ 48 ∧ (64 : Nat) ≤ 64 := by
  unfold Accepts; decide +kernel

theorem witness_MotorSet_outside :
    { (default : MotorSetFields) with polarity := some .outside }.polarity = some .outside ∧
      { (default : MotorSetFields) with lossAction := some .outside }.lossAction = some .outside := by decide +kernel

theorem witness_BringUpBegins :
    let retrying := State.reset.modChain 0 fun c => { c with state := .fault, retryLeft := some 1000 }
    (State.reset.chain 0).state ≠ .off ∧ ((chainIn .off State.reset).chain 0).state = .off ∧
      Accepts (chainIn .off State.reset) .program 0 ∧ (retrying.chain 0).state = .fault ∧
      (retrying.chain 0).retryLeft ≠ none ∧ (State.reset.chain 0).retryLeft = none ∧ (4 : Nat) ≤ 4 := by
  unfold Accepts; decide +kernel

theorem witness_ChainSetTakesSettings :
    let f : ChainSetFields := { (default : ChainSetFields) with divider1 := some 26 }
    let s := live .ready State.reset
    Accepts s .program 0 ∧ (∃ k : ModulePos, dividerField f k ≠ none ∧ (State.reset.chain 0).modules.length ≤ k.val) ∧
      (∀ k : ModulePos, dividerField f k ≠ none → k.val < (s.chain 0).modules.length) ∧
      (s.chain 0).modules[(0 : ModulePos).val]? = some (record .ready) := by unfold Accepts; decide +kernel

theorem witness_ChainModuleAndChannelReads :
    let s := live .ready State.reset
    Accepts s .program 0 ∧ (s.chain 0).modules[(0 : ModulePos).val]? = some (record .ready) ∧
      (s.chain 0).modules.length ≤ (1 : ModulePos).val ∧
      ((s.setChannel 3 single).channel 3).primary = some ⟨0, 0⟩ ∧ (4 : Nat) < 5 := by
  unfold Accepts; decide +kernel

theorem witness_PageRequestsQueue :
    let s := live .ready State.reset
    let op : PageOp := ⟨0, .range, none, 0, .copy⟩
    let withQueue := fun n => s.modChain 0 fun c => { c with queue := List.replicate n op }
    let busy := calling (.poll 0) s
    Accepts s .program 0 ∧ (State.reset.chain 0).live = false ∧ (s.chain 0).live = true ∧
      ((4 : Nat) ≤ 4 ∧ (5 : Nat) ≤ 5) ∧ (s.chain 0).modules.length ≤ (1 : ModulePos).val ∧
      ((live .absent s).chain 0).modules[(0 : ModulePos).val]? = some (record .absent) ∧
      (record .ready).state ≠ .absent ∧ 8 ≤ ((withQueue 8).chain 0).queue.length ∧
      ((withQueue 7).chain 0).queue.length < 8 ∧ (busy.chain 0).inFlight ≠ none ∧
      ((s.chain 0).inFlight = none ∧ (s.chain 0).syncPending = false ∧ (s.chain 0).round = [] ∧
        (s.chain 0).queue = []) ∧ (∀ q, (busy.chain q).wants = false) := by unfold Accepts; decide +kernel

theorem witness_ChainTimersSendTrains :
    let resting := State.reset.modChain 0 fun c => { c with inFlight := none, restLeft := some 20 }
    let training := State.reset.modChain 0 fun c => { c with state := .train, inFlight := none, trainLeft := some 5 }
    let probing := State.reset.modChain 0 fun c => { c with state := .empty, inFlight := none, probeLeft := some 200 }
    let same : Identity := ⟨2, 1, 1, 5⟩
    ((State.reset.chain 0).restLeft = none ∧ (resting.chain 0).state = .reset ∧ (resting.chain 0).restLeft ≠ none) ∧
      ((training.chain 0).state = .train ∧ (training.chain 0).trainLeft ≠ none ∧
        (training.chain 0).inFlight = none) ∧ (State.reset.chain 0).state ≠ .train ∧
      ((probing.chain 0).state = .empty ∧ (probing.chain 0).probeLeft ≠ none ∧ (probing.chain 0).inFlight = none) ∧
      (State.reset.chain 0).state ≠ .empty ∧ (record .ready).kind = same.kind ∧ (record .ready).model = same.model ∧
      (record .ready).kind ≠ (3 : Byte) := by decide +kernel

theorem witness_SyncTimerOwesOneSync :
    let s := live .ready State.reset
    (State.reset.chain 0).live = false ∧ (s.chain 0).live = true ∧ (s.chain 0).syncLeft ≠ none ∧
      (s.chain 0).inFlight = none ∧ ((calling (.poll 0) s).chain 0).inFlight ≠ none ∧
      (s.chain 1).inFlight ≠ none := by decide +kernel

theorem witness_the_hand_out :
    let s := live .ready State.reset
    let op : PageOp := ⟨0, .range, none, 0, .copy⟩
    let owed := s.modChain 0 fun c => { c with syncPending := true, round := [0], queue := [op] }
    let round := s.modChain 0 fun c => { c with round := [0, 1], queue := [op] }
    let queue := s.modChain 0 fun c => { c with queue := [op] }
    (owed.chain 0).syncPending = true ∧ (round.chain 0).syncPending = false ∧ (round.chain 0).round = [0, 1] ∧
      (s.chain 0).modules[(0 : ModulePos).val]? = some (record .ready) ∧ (record .ready).state ≠ .absent ∧
      (s.chain 0).modules[(1 : ModulePos).val]? = none ∧ (queue.chain 0).round = [] ∧ (queue.chain 0).queue = [op] ∧
      ((live .absent s).chain 0).modules[(0 : ModulePos).val]? = some (record .absent) ∧ (s.chain 0).round = [] ∧
      (s.chain 0).queue = [] := by decide +kernel

theorem witness_CallSentEndsCallsWithoutAnswer :
    let s := calling (.sync 7) (live .ready State.reset)
    let withRound := s.modChain 0 fun c => { c with round := [0] }
    (State.reset.chain 0).inFlight = some .resetAll ∧
      ((withRound.chain 0).inFlight = some (.sync 7) ∧ (withRound.chain 0).live = true ∧
        (withRound.chain 0).syncPending = false ∧ (withRound.chain 0).round = [0] ∧
        present (withRound.chain 0) 0 = true) ∧
      ((s.chain 0).round = [] ∧ (s.chain 0).queue = [] ∧ ∀ q, (s.chain q).wants = false) ∧
      (((calling (.poll 0) s).chain 0).inFlight ≠ some .resetAll ∧
        ∀ stamp, ((calling (.poll 0) s).chain 0).inFlight ≠ some (.sync stamp)) := by
  refine ⟨?_, ?_, ?_, ?_, fun stamp h => ?_⟩
  · decide +kernel
  · decide +kernel
  · decide +kernel
  · decide +kernel
  · have : ((calling (.poll 0) (calling (.sync 7) (live .ready State.reset))).chain 0).inFlight = some (.poll 0) := by
      decide +kernel
    rw [this] at h
    cases h

theorem witness_TransactionEndTakesAnswers :
    let training := calling .train (chainIn .train State.reset)
    let polled := calling (.poll 0) (live .ready State.reset)
    ((training.chain 0).inFlight = some .train ∧ (training.chain 0).state = .train ∧
      (training.chain 0).failedA = false ∧
      (!(training.chain 0).failedA && decide (WireAnswer.complete true .training = .complete true .training)) = true ∧
      WireAnswer.complete false .training ≠ .silent) ∧
      (polled.chain 0).inFlight = some (.poll 0) ∧
      (polled.chain 0).modules[(0 : ModulePos).val]? = some (record .ready) ∧
      (record .ready).state ≠ .absent ∧ [(5 : Half)].length = (record .ready).valueCount ∧
      (polled.chain 0).failedWire (polled.chain 0).selected = false := by decide +kernel

/-- The results that O38 names, on chain 0 with wire A selected, and a poll with and without BEYOND. -/
theorem witness_the_result_of_a_transaction :
    let s := calling (.poll 0) (live .ready State.reset)
    let good := fun beyond => WireAnswer.complete true (.sample 1 0 [5] beyond)
    let bad := WireAnswer.complete false (.sample 1 0 [5] false)
    GoodCopy (s.chain 0) (.poll 0) (good false) .silent .retA (.sample 1 0 [5] false) ∧
      outcome s 0 (.poll 0) bad (good false) = .answered (.sample 1 0 [5] false) true ∧
      outcome s 0 (.poll 0) bad .silent = .failed .badCheck ∧
      outcome s 0 (.poll 0) .silent .silent = .failed .noAnswer ∧
      outcome s 0 (.poll 0) (good true) .silent = .answered (.sample 1 0 [5] true) false ∧
      (s.chain 0).inFlight = some (.poll 0) ∧ (State.reset.chain 0).inFlight = some .resetAll ∧
      (s.chain 0).modules[(0 : ModulePos).val]? = some (record .ready) ∧ (s.chain 0).overlong = false ∧
      (0 : ModulePos).val + 1 = (s.chain 0).modules.length ∧ (s.chain 0).roundStamp = 0 ∧
      after (.transactionEnd 0 bad .silent) s = s ∧
      ((after (.transactionEnd 0 bad (good false)) s).chain 0).selected = .retB := by
  unfold GoodCopy Fits; decide +kernel

theorem witness_AnswerTimeoutTakesFailures :
    let tried := fun n => State.reset.modChain 0 fun c =>
      { c with state := .train, inFlight := some .train, trainTries := n }
    let asked := calling (.rollcall 0) (chainIn .rollcall State.reset)
    let polled := fun n => (calling (.poll 0) (live .ready State.reset)).modChain 0 fun c =>
      { c with modules := [{ record .ready with misses := n }] }
    let bad := WireAnswer.complete false (.sample 1 0 [5] false)
    let probing := calling .train (chainIn .empty State.reset)
    (((tried 8).chain 0).inFlight = some .train ∧ ((tried 8).chain 0).state = .train ∧
      8 ≤ ((tried 8).chain 0).trainTries) ∧ ((tried 7).chain 0).trainTries < 8 ∧
      ((asked.chain 0).inFlight = some (.rollcall 0) ∧ (asked.chain 0).state = .rollcall) ∧
      (((polled 3).chain 0).inFlight = some (.poll 0) ∧
        ((polled 3).chain 0).modules[(0 : ModulePos).val]? = some { record .ready with misses := 3 }) ∧
      ((polled 2).chain 0).modules[(0 : ModulePos).val]? = some { record .ready with misses := 2 } ∧
      (record .ready).state ≠ .absent ∧
      ((∀ k z, ¬GoodCopy ((polled 3).chain 0) (.poll 0) bad .silent k z) ∧
        copyOn ((polled 3).chain 0) bad .silent .retA ≠ .silent) ∧
      outcome (polled 3) 0 (.poll 0) bad .silent = .failed .badCheck ∧
      outcome (polled 3) 0 (.poll 0) .silent .silent = .failed .noAnswer ∧
      ((probing.chain 0).inFlight = some .train ∧ (probing.chain 0).state = .empty ∧
        (probing.chain 0).failedA = false) := by
  refine ⟨?_, ?_, ?_, ?_, ?_, ?_, ⟨fun k z => ?_, ?_⟩, ?_, ?_, ?_⟩
  all_goals first | decide +kernel | skip
  rintro ⟨h, _⟩
  cases k <;> cases h

/-- R78, R86: a probe that is answered begins a bring-up, one that is not leaves the chain EMPTY, and a poll with a bad
CHECK is charged without a miss. -/
theorem test_failed_polls_and_probes :
    let probing := calling .train (chainIn .empty State.reset)
    let ends := fun (a : WireAnswer) (s : State) => (after (.answerTimeout 0 a .silent) s).chain 0
    let polled := calling (.poll 0) (live .ready State.reset)
    (ends (.complete true .training) probing).state = .reset ∧ (ends .silent probing).state = .empty ∧
      (ends (.complete false .training) probing).inFlight = none ∧
      (ends (.complete false .training) polled).modules.map (fun r => (r.misses, r.bucket)) = [(0, 8)] ∧
      (ends .silent polled).modules.map (fun r => (r.misses, r.bucket)) = [(1, 8)] := by decide +kernel

/-- Chain 0 in `st` with a call on its wire, as `f` leaves it. -/
def waits (st : ChainState) (call : Call) (f : Chain → Chain) : State :=
  (calling call (live .ready State.reset)).modChain 0 fun c => f { c with state := st }

def pageOp (bytes : Option PageBytes) (tries : Nat) : PageOp := ⟨0, .range, bytes, tries, .request .program 0⟩

/-- R77: a rollcall goes on, ends with LAST and at position 4, ends in silence with and without a module, and is tried
again or ends in FAULT on a bad answer. -/
theorem witness_the_outcomes_of_a_rollcall :
    let asks := fun k n => waits .rollcall (.rollcall k) fun c => { c with callTries := n }
    let good := fun pos last => WireAnswer.complete true (.rollcall pos 2 1 1 5 last)
    let bad := WireAnswer.complete false .training
    let ends := fun (s : State) (a : WireAnswer) => (after (.answerTimeout 0 a .silent) s).chain 0
    outcome (asks 0 0) 0 (.rollcall 0) (good 1 false) .silent = .answered (.rollcall 1 2 1 1 5 false) false ∧
      outcome (asks 0 0) 0 (.rollcall 0) bad .silent = .failed .badCheck ∧
      (ends (asks 0 0) (good 1 false)).inFlight = some (.rollcall 1) ∧
      ((ends (asks 0 0) (good 1 true)).state, (ends (asks 0 0) (good 1 true)).overlong) = (.config, false) ∧
      ((ends (asks 3 0) (good 4 false)).state, (ends (asks 3 0) (good 4 false)).overlong) = (.config, true) ∧
      (ends (asks 0 0) .silent).state = .empty ∧ (ends (asks 1 0) .silent).state = .config ∧
      (ends (asks 0 1) bad).callTries = 2 ∧ (ends (asks 0 2) bad).state = .fault := by decide +kernel

/-- R79, R80: CONFIG stores a page read, writes START and goes ACTIVE or DEGRADED, and ends in FAULT. -/
theorem witness_the_outcomes_of_config :
    let bytes : PageBytes := Vector.replicate 8 9
    let reads := fun n => waits .config (.getPage 0 .range) fun c =>
      { c with configTodo := [⟨0, .range, false⟩, ⟨0, .start, true⟩], callTries := n }
    let writes := fun page failed => waits .config (.setPage 0 page bytes) fun c =>
      { c with configTodo := [⟨0, page, true⟩], failedB := failed }
    let ends := fun (s : State) (a : WireAnswer) => (after (.answerTimeout 0 a .silent) s).chain 0
    let page := WireAnswer.complete true (.pageAnswer 1 1 bytes)
    outcome (reads 0) 0 (.getPage 0 .range) page .silent = .answered (.pageAnswer 1 1 bytes) false ∧
      outcome (writes .start false) 0 (.setPage 0 .start bytes) (.complete true (.pageAck 1 3)) .silent =
        .answered (.pageAck 1 3) false ∧ (reads 0).module 0 0 = some (record .ready) ∧
      (ends (reads 0) page).modules.map ModuleRecord.range = [some bytes] ∧
      (ends (reads 0) page).inFlight = some (.setPage 0 .start (Vector.replicate 8 0)) ∧
      (ends (writes .rate false) (.complete true (.pageAck 1 2))).state = .active ∧
      (ends (writes .start true) (.complete true (.pageAck 1 3))).state = .degraded ∧
      (ends (writes .start true) (.complete true (.pageAck 1 3))).modules.map ModuleRecord.state = [.settling] ∧
      (ends (reads 1) .silent).callTries = 2 ∧ (ends (reads 2) .silent).state = .fault := by decide +kernel

/-- R89, R102: a page operation writes, reads, is tried again and fails, the last with a module that becomes ABSENT. -/
theorem witness_the_outcomes_of_a_page_operation :
    let bytes : PageBytes := Vector.replicate 8 9
    let page : List PageOp → Call := fun q => match q with
      | ⟨_, _, some b, _, _⟩ :: _ => .setPage 0 .range b
      | _ => .getPage 0 .range
    let serves := fun op r => (reserved (waits .active (page [op]) fun c => { c with queue := [op], modules := [r] })
      .program 0 0x24#8 7)
    let ends := fun (s : State) (a : WireAnswer) => after (.answerTimeout 0 a .silent) s
    let ack := WireAnswer.complete true (.pageAck 1 1)
    let written := ends (serves (pageOp (some bytes) 0) (record .ready)) ack
    let again := ends (serves (pageOp (some bytes) 0) (record .settling)) ack
    let read := ends (serves (pageOp none 0) (record .ready)) (.complete true (.pageAnswer 1 1 bytes))
    let gone := ends (serves (pageOp none 0) { record .ready with misses := 3 }) .silent
    outcome (serves (pageOp (some bytes) 0) (record .ready)) 0 (.setPage 0 .range bytes) ack .silent =
        .answered (.pageAck 1 1) false ∧
      (written.chain 0).modules.map (fun r => (r.state, r.range)) = [(.settling, some bytes)] ∧
      answer written = some (Reply.ok false .empty) ∧ (written.chain 0).queue = [] ∧
      (again.chain 0).modules.map (fun r => (r.state, r.settleLeft)) = [(.settling, 5)] ∧
      answer read = some (Reply.ok false (.page .range bytes)) ∧
      ((ends (serves (pageOp none 1) (record .ready)) .silent).chain 0).queue.map PageOp.tries = [2] ∧
      answer (ends (serves (pageOp none 2) (record .ready)) .silent) = some (Reply.refuse .failed) ∧
      (gone.chain 0).state = .reset := by decide +kernel

theorem witness_ModuleEventsChangeState :
    let s := live .settling State.reset
    (s.chain 0).modules[(0 : ModulePos).val]? = some (record .settling) ∧ (record .settling).state = .settling ∧
      (s.chain 0).live = true ∧ (State.reset.chain 0).live = false ∧
      (∀ r, (State.reset.chain 0).modules[(0 : ModulePos).val]? = some r → r.state ≠ .settling) ∧
      (record .ready).failing = false ∧ { record .ready with failing := true }.failing = true ∧
      s.module 0 0 = some (record .settling) := by decide +kernel

/-! ### Hypotheses that are met: channels, watches and reactions -/

def mapOf (spare : Option (Nat × Nat)) : MapFields :=
  { channel := 0, primaryPort := 0, primaryPos := 1, spare := spare, num := 1, den := 1, offset := 0 }

/-- Two modules of one kind on chain 0. -/
def twoModules : State :=
  (live .ready State.reset).modChain 0 fun c => { c with modules := [record .ready, record .settling] }

theorem witness_MapSetMapsChannel :
    let s := twoModules
    let elsewhere := s.setChannel 3 single
    let otherKind := s.modChain 0 fun c => { c with modules := [record .ready, { record .ready with kind := 3 }] }
    Accepts s .program 0 ∧ (mapOf (some (0, 2))).primaryPos = (0 : ModulePos).val + 1 ∧
      (mapOf (some (0, 2))).spare = (some (⟨0, 1⟩ : ModuleName)).map (fun n => (n.port.val, n.pos.val + 1)) ∧
      (mapOf none).den ≠ 0 ∧ { mapOf none with den := 0 }.den = 0 ∧
      ((s.setChannel 0 { single with state := .waiting }).channel 0).state = .waiting ∧
      (s.channel 0).state ≠ .waiting ∧ (s.channel 0).state ≠ .copying ∧ State.reset.module 0 0 = none ∧
      s.module 0 0 = some (record .ready) ∧ (⟨0, 1⟩ : ModuleName) ≠ ⟨0, 0⟩ ∧
      s.module 0 1 = some (record .settling) ∧ (record .settling).kind = (record .ready).kind ∧
      (otherKind.module 0 1).map ModuleRecord.kind = some 3 ∧ backs (elsewhere.channel 3) ⟨0, 0⟩ = true ∧
      (∀ k, k ≠ 0 → backs (s.channel k) ⟨0, 0⟩ = false ∧ backs (s.channel k) ⟨0, 1⟩ = false) := by
  unfold Accepts; decide +kernel

/-- R106: a pair is served by its primary where that one serves, and is EXPOSED while the other settles. -/
theorem test_map_set_of_a_pair :
    let t := after (.mapSet .program 1 (mapOf (some (0, 2)))) twoModules
    answer t = some (Reply.ok false (.mapped .exposed .primary 1)) ∧ (t.channel 0).state = .exposed := by
  decide +kernel

theorem witness_MapClearAndStaleDeadline :
    let s := State.reset.setChannel 0 { single with values := Vector.replicate 8 6 }
    let inState := fun st => State.reset.setChannel 0 { single with state := st }
    let moving := running onSample [] s
    let watched := s.setWatch 2 (some (watchAbove .program))
    Accepts s .program 0 ∧ ((inState .waiting).channel 0).state = .waiting ∧
      ((inState .copying).channel 0).state = .copying ∧ (State.reset.channel 0).state = .unmapped ∧
      (s.channel 0).state = .single ∧ (s.channel 0).staleAt ≠ none ∧ (State.reset.channel 0).staleAt = none ∧
      (moving.motor 0).active = some (activeOf onSample) ∧
      (activeOf onSample).seg.condition = .channel 0 0 .above 5 ∧ 0 < (moving.channel 0).valueCount ∧
      5 < (moving.channel 0).values[0] ∧ ¬5 < (single.values[0]) ∧ (State.reset.motor 0).active = none ∧
      (moving.motor 0).state ≠ .braked ∧ (watched.watch 2).map Watch.fireOnLoss = some true := by
  unfold Accepts; decide +kernel

/-- R34, R107, R125: the clearing of a channel reaches the segment and the watch that name it. -/
theorem test_map_clear_is_handed_on :
    let s := (running onSample [] (State.reset.setChannel 0 single)).setWatch 2 (some (watchAbove .program))
    let t := after (.mapClear .program 1 0) s
    (t.motor 0).state = .braked ∧ (t.motor 0).active = none ∧ (t.watch 2).map Watch.state = some .tripped ∧
      (t.channel 0).state = .unmapped ∧ t.program.notices.length = 4 := by decide +kernel

theorem witness_a_sample_of_a_module :
    let s := (live .ready State.reset).setChannel 0 single
    (s.channel 0).state ≠ .unmapped ∧ (s.channel 0).primary = some ⟨0, 0⟩ ∧ (s.channel 0).state = .single ∧
      (record .ready).state = .ready ∧ (record .settling).state ≠ .ready ∧
      (∀ ch, (State.reset.channel ch).state = .unmapped) ∧
      ((channelSample ⟨0, 0⟩ (record .ready) ⟨[7], 3⟩ s).channel 0).staleAt = some 120 := by decide +kernel

/-- Channel 0 names both modules of chain 0, in the given states, and stands in `st`. -/
def paired (st : ChannelState) (x y : ModuleRecord) : State :=
  ((live .ready State.reset).modChain 0 fun c => { c with modules := [x, y] }).setChannel 0
    { single with state := st, spare := some ⟨0, 1⟩ }

def failing : ModuleRecord := { record .ready with failing := true }

theorem witness_ModuleReportsJudgeChannels :
    let judged := fun s => ((judgeChannel 0 s).channel 0).state
    let alone := fun (r : ModuleRecord) (poor : Bool) =>
      (paired .single r r).setChannel 0 { single with poor := poor }
    let good := record .ready
    let copying := { paired .copying good good with copy := some ⟨0, Vector.replicate 8 1, Vector.replicate 8 2,
      Vector.replicate 8 3, Vector.replicate 8 0, 4⟩ }
    judged State.reset = .unmapped ∧ judged (alone (record .absent) false) = .lost ∧
      ((judgeChannel 0 (alone failing false)).channel 0).poor = true ∧
      ((judgeChannel 0 (alone good true)).channel 0).poor = false ∧ judged (alone good false) = .single ∧
      judged (paired .redundant failing good) = .copying ∧ judged (paired .exposed failing failing) = .lost ∧
      judged (paired .redundant good failing) = .exposed ∧ judged (paired .exposed good good) = .redundant ∧
      judged (paired .redundant good good) = .redundant ∧ judged (paired .waiting good failing) = .lost ∧
      judged (paired .waiting failing good) = .waiting ∧ judged (paired .copying good failing) = .lost ∧
      judged copying = .redundant ∧ ((judgeChannel 0 copying).channel 0).serving = .spare ∧
      judged (paired .lost failing good) = .exposed ∧ judged (paired .lost failing failing) = .lost := by
  decide +kernel

theorem witness_the_copy_engine :
    let s := paired .waiting (record .ready) (record .ready)
    let bare := paired .waiting { record .ready with rate := none } (record .ready)
    let begun := runEngine 16 s
    State.reset.copy = none ∧ (∀ ch, (State.reset.channel ch).state ≠ .waiting) ∧ (s.channel 0).state = .waiting ∧
      begun.copy.map Copy.written = some 0 ∧ (begun.chain 0).queue.length = 1 ∧ (s.chain 0).state = .active ∧
      s.module 0 1 = some (record .ready) ∧ ((runEngine 16 bare).channel 0).state = .lost ∧
      (copyWriteEnded true begun).copy.map Copy.written = some 1 ∧
      (copyWriteEnded true (copyWriteEnded true begun)).copy.map Copy.written = some 2 ∧
      ((copyWriteEnded false begun).channel 0).state = .lost ∧
      (paired .single (record .settling) (record .ready)).module 0 0 = some (record .settling) ∧
      (∀ q, ((paired .single (record .ready) (record .ready)).chain q).wants = false) := by decide +kernel

theorem witness_WatchAndReactSet :
    let s := State.reset.setChannel 0 single
    let f : WatchFields := { (default : WatchFields) with entry := .any, comparison := .known .above, threshold := 10 }
    let full := { s with watches := Vector.replicate 16 (some (watchAbove .program)) }
    let r : ReactFields :=
      { entry := .number 15, trigger := .segmentEnd 5 none, action := .notify 0x21#8, mode := .known .once
        enabled := true }
    Accepts s .program 0 ∧ entryOk 16 f.entry = true ∧ f.channel = (0 : ChannelId).val ∧
      f.index = (0 : Fin 8).val ∧ (State.reset.channel 0).state = .unmapped ∧ (s.channel 0).state ≠ .unmapped ∧
      (s.channel 0).valueCount ≤ (1 : Fin 8).val ∧ (0 : Fin 8).val < (s.channel 0).valueCount ∧
      placeEntry allEntries (fun n => (s.watch n).map Watch.creator) .program f.entry = .at 0 ∧
      placeEntry allEntries (fun n => (full.watch n).map Watch.creator) .program f.entry = .refused .full ∧
      checkWatchTest .above f = some (.above 10, 0, false) ∧
      checkWatchTest .inside { f with lo := 1 } = none ∧
      checkTrigger (.segmentEnd 6 none) = none ∧ checkAction .outside = none ∧
      checkTrigger r.trigger = some (.segmentEnd 5 none) ∧ checkAction r.action = some (.notify 0x21#8, false) ∧
      placeEntry allEntries (fun n => (s.reaction n).map Reaction.creator) .program r.entry = .at 15 := by
  unfold Accepts; decide +kernel

theorem witness_EntriesClearedAndRead :
    let s := (State.reset.setWatch 0 (some (watchAbove .program))).setReaction 0 (some (notifyOn .tablet))
    Accepts s .program 0 ∧ s.watch 0 = some (watchAbove .program) ∧ (watchAbove .program).creator = .program ∧
      s.reaction 0 = some (notifyOn .tablet) ∧ (notifyOn .tablet).creator = .tablet ∧ s.watch 15 = none ∧
      s.reaction 15 = none ∧
      answer (after (.reactRead .program 1 .outside) s) = some (Reply.refuse .badValue) := by
  unfold Accepts; decide +kernel

theorem witness_WatchesAndReactionsFire :
    let w := watchAbove .program
    let change := { w with test := .change 5 }
    let s := State.reset.setReaction 3 (some (notifyOn .program))
    (w.test = .above 10 ∧ w.state = .armed ∧ (10 : Int) < 11 ∧ ¬(10 : Int) < 10 ∧ (8 : Int) ≤ 10 - w.hysteresis ∧
      ¬(9 : Int) ≤ 10 - w.hysteresis) ∧ { w with state := .tripped }.state = .tripped ∧ change.reference = none ∧
      { change with reference := some 3 }.reference = some 3 ∧ (5 : Int) ≤ ((8 : Int) - 3).natAbs ∧
      (((7 : Int) - 3).natAbs : Int) < 5 ∧ s.reaction 3 = some (notifyOn .program) ∧
      (notifyOn .program).action = .notify 0x21#8 ∧ (notifyOn .program).enabled = true ∧
      matchesEvent (notifyOn .program).trigger (.segmentEnd 0 7 .done false) = true ∧
      (∀ k, k ≠ 3 → s.reaction k = none) := by decide +kernel

/-- R130 to R132: NOT_OWNER, REFUSED and TOO_DEEP, each with the skip count raised. -/
theorem test_reactions_that_do_not_act :
    let onVoice := fun a : Action => { notifyOn .program with trigger := .voiceEnd 0, action := a, mode := .repeated }
    let s := fun a => State.reset.setReaction 0 (some (onVoice a))
    let skips := fun (t : State) => (t.reaction 0).map fun r => (r.fires, r.skips)
    let e : Event := .voiceEnd 0 .finished
    skips (react e (s (.halt 0 .coast))) = some (1, 1) ∧
      skips (react e (mine (.voice 1) (s (.play 1 0)))) = some (1, 1) ∧
      skips (react e (mine (.motor 0) (s (.segment 0 goForward false)))) = some (1, 0) ∧
      skips (takeEvent 0 e (s (.notify 0))) = some (0, 1) := by decide +kernel

theorem witness_a_segment_handed_in :
    let full := State.reset.modMotor 0 fun mo => { mo with queue := List.replicate 8 goForward }
    let refusal := fun (s : State) (seg : Segment) (replace : Bool) => match handIn 0 seg replace s with
      | .ok _ => none
      | .error st => some st
    refusal (motorIn .fault State.reset) goForward true = some .faulted ∧
      refusal State.reset onSample true = some .noSource ∧
      refusal (State.reset.setChannel 0 { single with valueCount := 0 }) onSample true = some .badValue ∧
      refusal full goForward false = some .full ∧ refusal full goForward true = none ∧
      refusal (running goForward [] State.reset) goForward true = none := by decide +kernel

/-! ### Hypotheses that are met: clip store and sound -/

def oneWindow (w : Window) : State := { State.reset with windows := State.reset.windows.set 1 w }
def high : Window := ⟨true, 258048, 4096, true, true, true, false⟩

theorem witness_WindowSetDefinesWindow :
    let f : WindowFields := ⟨3, true, 258048, 4096, true, true, true, false, true⟩
    let locked := oneWindow { high with locked := true }
    Accepts State.reset .program 0 ∧ f.window = (3 : WindowId).val ∧
      State.reset.windows[(3 : WindowId)].locked = false ∧
      (f.size ∈ [4096, 8192, 16384, 32768, 65536, 131072, 262144] ∧ f.base % f.size = 0 ∧
        f.base + f.size ≤ 262144) ∧ 4095 % 4096 ≠ 0 ∧ locked.windows[(1 : WindowId)].locked = true ∧
      Accepts locked .program 0 ∧ (4 : Nat) ≤ 4 ∧ 258048 ≤ 262143 ∧ 262143 < 258048 + 4096 ∧
      ({ State.reset with windows := Vector.replicate 4 Window.invalid }.windows[(0 : WindowId)].valid = false) := by
  unfold Accepts; decide +kernel

theorem witness_StoreWriteReadsBack :
    let s := State.reset
    let held := s.setClip 0 (some (clipOf .program 1))
    let locked := oneWindow { high with locked := true }
    Accepts s .program 0 ∧ Store.wf s.store = true ∧ (List.replicate 240 (1 : Byte)) ≠ [] ∧
      (List.replicate 240 (1 : Byte)).length ≤ 240 ∧ 262143 + [(1 : Byte)].length ≤ 262144 ∧
      (∀ k : Fin 240, mayWrite s .program (261904 + k.val) = true ∧ lockedAt s (261904 + k.val) = false) ∧
      (∀ k, s.clip k = none) ∧ 240 < (List.replicate 241 (1 : Byte)).length ∧
      262144 < 262143 + [(1 : Byte), 2].length ∧ mayWrite s .tablet 0 = false ∧ lockedAt locked 258048 = true ∧
      held.clip 0 = some (clipOf .program 1) ∧ 0 < (clipOf .program 1).inUse ∧
      (15 < (clipOf .program 1).base + (clipOf .program 1).length ∧
        (clipOf .program 1).base + (clipOf .program 1).length ≤ 16) := by
  unfold Accepts; decide +kernel

/-- R138: the last byte of a clip in use is held, the byte after it is not. -/
theorem test_store_write_at_a_held_clip :
    let held := State.reset.setClip 0 (some (clipOf .program 1))
    answer (after (.storeWrite .program 1 15 [1]) held) = some (Reply.refuse .inUse) ∧
      answer (after (.storeWrite .program 1 16 [1]) held) = some (Reply.ok false .empty) := by decide +kernel

theorem witness_StoreReadAnswersBytes :
    Accepts State.reset .program 0 ∧ 240 < 241 ∧ 262144 < 261905 + 240 ∧ 261904 + 240 ≤ 262144 ∧
      mayWrite State.reset .tablet 0 = false ∧
      (∀ k : Fin 240, mayWrite State.reset .program (261904 + k.val) = true) := by unfold Accepts; decide +kernel

theorem witness_ClipsAndCuesAreSet :
    let s := State.reset
    let f : ClipFields := ⟨.any, 262142, 2, .known .pcm16At16k⟩
    let held := s.setClip 0 (some (clipOf .program 1))
    let c : CueFields := ⟨.any, .tone 440 100 (.known .square) 512, .entry 63⟩
    Accepts s .program 0 ∧ entryOk 48 f.entry = true ∧ f.length ≠ 0 ∧ f.length % 2 = 0 ∧
      f.base + f.length ≤ 262144 ∧
      placeEntry allClips (fun n => (s.clip n).map Clip.creator) .program f.entry = .at 0 ∧
      placeEntry allClips (fun n => (held.clip n).map Clip.creator) .program (.number 0) = .at 0 ∧
      held.clip 0 = some (clipOf .program 1) ∧ 0 < (clipOf .program 1).inUse ∧ s.clip 0 = none ∧
      262144 < { f with base := 262143 }.base + f.length ∧ entryOk 64 c.entry = true ∧
      checkCueBody c.body = some (.tone 440 100 .square 512, false) ∧ checkNext c.next = some (.entry 63) ∧
      placeEntry allCues (fun n => (s.cue n).map Cue.creator) .program c.entry = .at 0 ∧
      checkCueBody .outside = none ∧ checkNext (.entry 64) = none := by unfold Accepts; decide +kernel

theorem witness_ClipsAndCuesAreRemoved :
    let s := fun src n => (State.reset.setClip 47 (some (clipOf src n))).setCue 63 (some tone)
    Accepts (s .program 0) .program 0 ∧ (s .program 0).clip 47 = some (clipOf .program 0) ∧
      (clipOf .program 0).inUse = 0 ∧ (s .tablet 1).clip 47 = some (clipOf .tablet 1) ∧
      0 < (clipOf .tablet 1).inUse ∧ Accepts (up (s .program 0)) .tablet 0 ∧
      (clipOf .program 0).creator = .program ∧ (s .program 0).clip 0 = none ∧ (s .program 0).cue 63 = some tone ∧
      (s .program 0).cue 0 = none ∧ tone.creator = .program := by unfold Accepts; decide +kernel

theorem witness_Play_Stop_and_Levels :
    let s := (mine (.voice 0) State.reset).setCue 0 (some tone)
    Accepts s .program 0 ∧ s.owner (.voice 0) = some .program ∧ s.cue 63 = none ∧ (s.voice 0).state = .idle ∧
      s.cue 0 = some ⟨.tone 440 100 .square 512, .finish, .program⟩ ∧
      ((playing s).voice 0).state = .playing ∧ ((playing s).voice 0).gain ≠ 0 ∧
      ((playing s).voice 0).cue = some ⟨tone.body, .finish, none⟩ ∧ Accepts (playing s) .program 0 ∧
      (((playing s).modVoice 0 fun v => { v with gain := 0 }).voice 0).gain = 0 ∧
      (((playing s).modVoice 0 fun v => { v with state := .fading }).voice 0).state = .fading ∧
      s.clip 0 = none ∧ ((s.setClip 0 (some (clipOf .program 0))).clip 0) = some (clipOf .program 0) ∧
      (clipOf .program 0).length - 16 < 1 ∧ 1 ≤ (clipOf .program 0).length - 15 := by
  unfold Accepts; decide +kernel

/-- R144, R145, R150: a CLIP cue replaces a tone and holds its clip; without one it is a BAD_CLIP; and STOP with FADE
ends a voice of gain 0 at once. -/
theorem test_play_and_stop_of_a_playing_voice :
    let cue := fun start => some ⟨.clip 0 start 0 0 512, .finish, .program⟩
    let s := fun start => (((playing (mine (.voice 0) State.reset)).setClip 0 (some (clipOf .program 0))).setCue 1
      (cue start))
    let t := after (.play .program 1 0 1) (s 15)
    let bad := after (.play .program 1 0 1) (s 16)
    let silent := (s 15).modVoice 0 fun v => { v with gain := 0 }
    (answer t = some (Reply.ok false (.played .playing 1 true)) ∧ (t.clip 0).map Clip.inUse = some 1 ∧
      t.program.notices.getLast? = some ⟨false, .voiceEnd 0 .replaced (some 0) none 0⟩) ∧
      (answer bad = some (Reply.ok false (.played .idle 1 true)) ∧
        bad.program.notices.getLast? = some ⟨false, .voiceEnd 0 .replaced (some 0) none 0⟩ ∧
        bad.program.notices.map Notice.body =
          [.started .powerOn 0, .voiceEnd 0 .badClip none none 0, .voiceEnd 0 .replaced (some 0) none 0]) ∧
      ((after (.stop .program 1 0 (.known .fade)) silent).voice 0).state = .idle ∧
      ((after (.stop .program 1 0 (.known .fade)) (s 15)).voice 0).state = .fading := by decide +kernel

theorem witness_OutputSampleMixesVoices :
    let s := playing State.reset
    let fading := s.modVoice 0 fun v => { v with state := .fading, target := 0, gain := 4 }
    (∀ v, (State.reset.voice v).state = .idle) ∧ (s.voice 0).state = .playing ∧
      (s.voice 0).cue = some ⟨.tone 440 100 .square 512, .finish, none⟩ ∧ 1 < (s.voice 0).position ∧
      (fading.voice 0).state = .fading ∧ ¬(fading.voice 0).gain < (fading.voice 0).target ∧
      max (fading.voice 0).target ((fading.voice 0).gain - 4) = 0 := by decide +kernel

/-- A voice that plays a clip of two bytes at 16 kHz, at `pos` of its region. -/
def clipping (pos : Nat) (rep : Repeats) : State :=
  let s := (playing { State.reset with store := [⟨1, 0x40#8⟩] }).setClip 0 (some { clipOf .program 1 with length := 2 })
  s.modVoice 0 fun v =>
    { v with
      cue := some ⟨.clip 0 0 2 0 512, .finish, some ⟨0, .pcm8At16k, 0, 2⟩⟩, position := pos, repeats := rep }

/-- R146, R152: a clip's byte by 256, its region repeated, and its clip released at its end. -/
theorem test_output_sample_of_a_clip :
    let inside := stepVoice 0 (clipping 0 (.left 0))
    let again := stepVoice 0 (clipping 1 (.left 1))
    let ended := stepVoice 0 (clipping 1 (.left 0))
    (inside.contribution = 0 ∧ (inside.state.voice 0).position = 1) ∧
      (again.contribution = 1664 ∧ (again.state.voice 0).position = 0 ∧
        (again.state.voice 0).repeats = .left 0) ∧
      (ended.contribution = 1664 ∧ (ended.state.voice 0).state = .idle ∧
        ended.report = some ⟨0, .finished, .program, none, none⟩ ∧
        (ended.state.clip 0).map Clip.inUse = some 0) := by decide +kernel

/-- R141, R145: what a fetch finds: END, an empty entry, a CLIP cue without clip, and a cue that plays. -/
theorem test_fetches_of_cues :
    let s := (playing State.reset).setCue 0 (some tone)
    let ofClip := s.setCue 1 (some ⟨.clip 0 0 2 0 512, .finish, .program⟩)
    let reason := fun next u => (fetchCue 0 next u).2.map VoiceReport.reason
    reason .finish s = some .finished ∧ reason (.entry 63) s = some .brokenList ∧
      reason (.entry 1) ofClip = some .badClip ∧
      reason (.entry 1) (ofClip.setClip 0 (some { clipOf .program 0 with length := 2 })) = none ∧
      reason (.entry 0) s = none ∧ ((fetchCue 0 (.entry 0) s).1.voice 0).position = 1600 := by decide +kernel

/-! ### Hypotheses that are met: telemetry and invariants -/

theorem witness_SubscriptionsComeAndFallDue :
    let s := State.reset.setChannel 0 single
    let entry := fun due delta last => State.reset.setSub 23
      (some { subOf .program due 0 with delta := delta, lastSent := last })
    Accepts s .program 0 ∧ (7 : Nat) < 8 ∧ namedItem .budgetUsed = .budgetUsed ∧
      namedItem (.channel 15 7) = .channel 15 7 ∧ (State.reset.channel 0).state = .unmapped ∧
      (s.channel 0).state ≠ .unmapped ∧ (s.channel 0).valueCount ≤ (1 : Fin 8).val ∧ s.sub 0 = none ∧
      (∀ n, (subscribed (subOf .program true 0) s).sub n ≠ none) ∧
      (entry true none none).sub 23 = some (subOf .program true 0) ∧ (subOf .program true 0).link = .program ∧
      (subOf .tablet true 0).link ≠ .program ∧
      (entry false (some 5) (some 3)).sub 23 =
        some { subOf .program false 0 with delta := some 5, lastSent := some 3 } ∧
      (5 ≤ ((8 : Int) - 3).natAbs ∧ ((7 : Int) - 3).natAbs < 5) ∧
      (Word.diff (BitVec.ofInt 32 (-2147483648)) (BitVec.ofInt 32 2147483647)).natAbs = 1 := by
  unfold Accepts; decide +kernel

theorem witness_Subscriptions_of_no_item (item : Item) :
    RawItem.outside ≠ namedItem item ∧ RawItem.motorPos 6 ≠ namedItem item ∧
      RawItem.motorPos 5 = namedItem (.motorPos 5) := by
  refine ⟨fun h => ?_, fun h => ?_, rfl⟩
  · cases item <;> cases h
  · cases item with
    | motorPos m => exact absurd (RawItem.motorPos.inj h) (by omega)
    | _ => cases h

/-- Tables 10-2 and 10-3: readings of a mapped channel, a motor and a chain. -/
theorem test_readings_of_items :
    let s := { State.reset.setChannel 0 { single with values := Vector.replicate 8 6, fresh := true, stamp := 5 } with
      time := 65541 }
    readItem s (.channel 0 0) = ⟨6, true, false, 65535⟩ ∧ readItem s (.channel 0 1) = ⟨0, false, false, 65535⟩ ∧
      readItem s (.channel 1 0) = ⟨0, false, false, 0⟩ ∧
      readItem (motorIn .braked s) (.motorState 0) = ⟨3, true, false, 0⟩ ∧
      readItem (chainIn .degraded s) (.chainState 0) = ⟨6, true, false, 0⟩ := by decide +kernel

theorem witness_invariants_kept :
    StoreInv State.reset ∧ BudgetInv State.reset ∧ NoticeInv State.reset ∧
      (∀ r ∈ allResources, State.reset.claim r = Claim.none) ∧
      ∃ t, step State.reset = .next t := by
  refine ⟨⟨by decide +kernel, by intro cell h; cases h⟩, ?_, ?_, by decide +kernel, ⟨_, rfl⟩⟩
  · unfold BudgetInv; decide +kernel
  · intro src; cases src <;> decide

/-- The program link with so many notices waiting, its overflow flag set. -/
def noticed (n : Nat) : State :=
  { State.reset with
    program := { State.reset.program with
      notices := List.replicate n ⟨false, .started .powerOn 0⟩, overflow := true } }

theorem witness_NoticesArePlacedAndBounded :
    ((Source.tablet = .tablet ∧ State.reset.linkUp = false) ∧ Sends (noticed 15) .program) ∧
      ((noticed 15).link .program).notices.length < 16 ∧ 16 ≤ ((noticed 16).link .program).notices.length ∧
      Sends (up State.reset) .tablet := by unfold Sends; decide +kernel

/-- R180: the sixteenth notice tells the overflow and clears it; a seventeenth is dropped. -/
theorem test_a_notice_joins_or_is_dropped :
    let b : NoticeBody := .started .softReset 1
    ((noticed 15).place .program b).program.notices.getLast? = some ⟨true, b⟩ ∧
      ((noticed 15).place .program b).program.overflow = false ∧ (noticed 16).place .program b = noticed 16 ∧
      State.reset.place .tablet b = State.reset := by decide +kernel

/-! ### Single steps -/

theorem test_step_takes_the_front_command :
    let s := { State.reset with pending := [.masterSet .program 1 100, .budgetRead .program 2] }
    (match step s with
     | .next t => decide (t.master = 100 ∧ t.pending = [.budgetRead .program 2])
     | .fault _ => false
     | .refused _ => false) = true := by decide +kernel

/-- R176, R177: the five bytes of an IDENT frame act as the IDENT request does. -/
theorem test_ident_frame_is_answered :
    (match feed .program State.reset (frameOf 0x01#8 0x07#8 []) with
     | .next t => decide (t = after (.ident .program 0x07#8) State.reset ∧ answer t ≠ none)
     | .fault _ => false
     | .refused _ => false) = true := by decide +kernel

theorem test_claim_and_seg :
    let s := after (.claim .program 1 ⟨[.motor 0], 500⟩) State.reset
    let t := after (.seg .program 2 0 rawMove) s
    s.claim (.motor 0) = ⟨some .program, some ⟨500, 500⟩⟩ ∧ (t.motor 0).queue = [goForward] ∧
      answer t = some (Reply.ok false (.depth 1)) ∧ ((after (.controlTick 0 0) t).motor 0).state = .running := by
  decide +kernel

theorem test_seg_of_another_owner_is_refused :
    answer (after (.seg .program 2 0 rawMove) (theirs (.motor 0) State.reset)) = some (Reply.refuse .notOwner) := by
  decide +kernel

theorem test_budget_set_clamps :
    (after (.budgetSet .program 1 499) State.reset).governor.budget = 500 ∧
      answer (after (.budgetSet .program 1 499) State.reset) = some (Reply.ok true (.budgetSet 500 0 0)) := by
  decide +kernel

theorem test_reset_all_rests_then_trains :
    let s := after (.callSent 0) State.reset
    let t := after (.resetRestExpiry 0) s
    (s.chain 0).restLeft = some 20 ∧ (t.chain 0).state = .train ∧ (t.chain 0).inFlight = some .train := by
  decide +kernel

/-- R86, R108, R109, R123: a polled sample reaches the channel that its module backs and the watch on it. -/
theorem test_sample_reaches_channel_and_watch :
    let s := ((calling (.poll 0) (live .ready State.reset)).setChannel 0 single).setWatch 0 (some (watchAbove .program))
    let t := after (.transactionEnd 0 (.complete true (.sample 1 0 [11] false)) .silent) s
    (t.channel 0).values[0] = 11 ∧ (t.channel 0).fresh = true ∧
      (t.watch 0).map Watch.state = some .tripped ∧ (t.watch 0).map Watch.fires = some 4 := by decide +kernel

theorem test_store_write_then_read :
    let s := after (.storeWrite .program 1 262142 [1, 2]) State.reset
    s.store = [⟨262142, 1⟩, ⟨262143, 2⟩] ∧
      answer (after (.storeRead .program 2 262142 2) s) = some (Reply.ok false (.bytes [1, 2])) ∧
      (after (.storeWrite .program 3 262142 [0]) s).store = [⟨262143, 2⟩] := by decide +kernel

/-- R146, R151, R154: 16384 by the gain 104 and by the master 768, each div 1024. -/
theorem test_output_sample_of_a_square_tone : (after .outputSample (playing State.reset)).aout = 1248 := by
  decide +kernel

theorem test_play_asks_for_current :
    let s := after (.play .program 1 0 0) ((mine (.voice 0) State.reset).setCue 0 (some tone))
    answer s = some (Reply.ok false (.played .playing 0 false)) ∧ s.governor.supply (.voice 0) = ⟨60, 60⟩ := by
  decide +kernel

theorem test_subscribe_takes_the_lowest_entry :
    let s := after (.subscribe .program 1 ⟨.budgetUsed, 9, 0, 7, 0⟩) State.reset
    answer s = some (Reply.ok true (.subscribed 0 10 0)) ∧ (s.sub 0).map Subscription.due = some true := by
  decide +kernel

end Sys2Proof.Tests
end

namespace Sys2Proof.Machine

open Sys2Proof.Safety

/-! ### Numbers that name a record -/

@[simp] theorem index_val {k : Nat} (n : Fin k) : index k n.val = some n := dif_pos n.isLt

theorem index_of_le {k n : Nat} (h : k ≤ n) : index k n = none := dif_neg (Nat.not_lt.2 h)

/-- A command that leads to the same state has the same outcome. -/
theorem next_congr {s t : State} (h : s = t) : (.next s : Out) = .next t := congrArg _ h

/-! ### Owner-only requests (R10, R144, R163, R167) -/

theorem ownerOnly_notOwner {r : Resource} {src : Source} {s : State} (h : s.owner r ≠ some src)
    (act : State → State × Reply) : ownerOnly r src act s = (s, Reply.refuse .notOwner) := if_neg h

/-- R10, R167: a request of the owner that its block refuses. -/
theorem ownerOnly_refused {r : Resource} {src : Source} {s : State} {act : State → State × Reply} {st : Status}
    (own : s.owner r = some src) (e : act s = (s, Reply.refuse st)) (bad : st ≠ .ok) :
    ownerOnly r src act s = (s, Reply.refuse st) := by
  unfold ownerOnly
  rw [if_pos own, e]
  exact if_neg bad

/-- R163: an accepted request of the owner restarts the lease. -/
theorem ownerOnly_accepted {r : Resource} {src : Source} {s t : State} {act : State → State × Reply} {clamped : Bool}
    {body : ReplyBody} (own : s.owner r = some src) (e : act s = (t, Reply.ok clamped body)) :
    ownerOnly r src act s = (t.restartLease r, Reply.ok clamped body) := by
  unfold ownerOnly
  rw [if_pos own, e]
  exact if_pos rfl

section Request

variable {s : State} {src : Source} {i : Fin 8} (h : Accepts s src i) {k : RequestKind}
  (any : RequestKind.programOnly k = false) (tag : Byte)
include h any

/-- R178, R179: a request that its block answers without a change, as a read or a refusal. -/
theorem serve_unchanged {act : State → State × Reply} {r : Reply}
    (e : ∀ t, t = reserved s src i (RequestKind.code k) tag → act t = (t, r)) :
    serve k src tag act s = answered s src i (RequestKind.code k) tag r :=
  serve_answered h k tag (fun only => absurd (any.symm.trans only) (by decide)) (e _ rfl)

theorem serve_motor_badValue {n : Nat} (out : 6 ≤ n) (act : MotorId → State → State × Reply) :
    serve k src tag (motorRequest n src act) s =
      answered s src i (RequestKind.code k) tag (Reply.refuse .badValue) :=
  serve_unchanged h any tag fun t _ => by unfold motorRequest; rw [index_of_le out]

theorem serve_motor_notOwner {m : MotorId} (other : s.owner (.motor m) ≠ some src)
    (act : MotorId → State → State × Reply) :
    serve k src tag (motorRequest m.val src act) s =
      answered s src i (RequestKind.code k) tag (Reply.refuse .notOwner) :=
  serve_unchanged h any tag fun t e => by
    subst e
    unfold motorRequest
    rw [index_val]
    exact ownerOnly_notOwner (by rwa [reserved_owner]) _

theorem serve_motor_refused {m : MotorId} (own : s.owner (.motor m) = some src)
    {act : MotorId → State → State × Reply} {st : Status} (bad : st ≠ .ok)
    (e : ∀ t, t = reserved s src i (RequestKind.code k) tag → act m t = (t, Reply.refuse st)) :
    serve k src tag (motorRequest m.val src act) s =
      answered s src i (RequestKind.code k) tag (Reply.refuse st) :=
  serve_unchanged h any tag fun t r => by
    unfold motorRequest
    rw [index_val]
    exact ownerOnly_refused (by rwa [r, reserved_owner]) (e t r) bad

/-- R163, R179: an accepted request of a motor's owner: the lease restarts, and the reply is made waiting. -/
theorem serve_motor_owned {m : MotorId} (own : s.owner (.motor m) = some src)
    {act : MotorId → State → State × Reply} {t : State} {clamped : Bool} {body : ReplyBody}
    (e : act m (reserved s src i (RequestKind.code k) tag) = (t, Reply.ok clamped body)) :
    serve k src tag (motorRequest m.val src act) s =
      (t.restartLease (.motor m)).post src i (Reply.ok clamped body) := by
  rw [serve_accepted h k tag _ fun only => absurd (any.symm.trans only) (by decide)]
  unfold motorRequest
  rw [index_val]
  dsimp only
  rw [ownerOnly_accepted (by rwa [reserved_owner]) e]

/-- R163, R179: an accepted request that leaves the links alone: `t` is what it makes of the state. -/
theorem serve_motor_accepted {m : MotorId} (own : s.owner (.motor m) = some src)
    {act : MotorId → State → State × Reply} {t : State} {clamped : Bool} {body : ReplyBody}
    (e : act m (reserved s src i (RequestKind.code k) tag) =
      (reserved t src i (RequestKind.code k) tag, Reply.ok clamped body)) :
    serve k src tag (motorRequest m.val src act) s =
      answered (t.restartLease (.motor m)) src i (RequestKind.code k) tag (Reply.ok clamped body) := by
  rw [serve_motor_owned h any tag own e, reserved_restartLease, post_reserved_eq_answered]

theorem serve_voice_badValue {n : Nat} (out : 4 ≤ n) (act : VoiceId → State → State × Reply) :
    serve k src tag (voiceRequest n src act) s =
      answered s src i (RequestKind.code k) tag (Reply.refuse .badValue) :=
  serve_unchanged h any tag fun t _ => by unfold voiceRequest; rw [index_of_le out]

theorem serve_voice_notOwner {v : VoiceId} (other : s.owner (.voice v) ≠ some src)
    (act : VoiceId → State → State × Reply) :
    serve k src tag (voiceRequest v.val src act) s =
      answered s src i (RequestKind.code k) tag (Reply.refuse .notOwner) :=
  serve_unchanged h any tag fun t e => by
    subst e
    unfold voiceRequest
    rw [index_val]
    exact ownerOnly_notOwner (by rwa [reserved_owner]) _

end Request

/-- Settles O10: the number is judged before the owner, and the owner before every other field, so each of the eight
requests is refused without a look at what it carries. -/
theorem ownerOnlyRefusals : Obligations.OwnerOnlyRefusals := by
  unfold Obligations.OwnerOnlyRefusals
  intro s src i tag n f value seg action cue o level h
  refine ⟨fun out => ?_, fun m e other => ?_, fun out => ?_, fun v e other => ?_⟩
  · have refused {k : RequestKind} (any : RequestKind.programOnly k = false) (act : MotorId → State → State × Reply) :=
      next_congr (serve_motor_badValue h any tag out act)
    exact ⟨refused (k := .motorSet) rfl _, refused (k := .zero) rfl _, refused (k := .clearFault) rfl _,
      refused (k := .seg) rfl _, refused (k := .halt) rfl _⟩
  · subst e
    have refused {k : RequestKind} (any : RequestKind.programOnly k = false) (act : MotorId → State → State × Reply) :=
      next_congr (serve_motor_notOwner h any tag other act)
    exact ⟨refused (k := .motorSet) rfl _, refused (k := .zero) rfl _, refused (k := .clearFault) rfl _,
      refused (k := .seg) rfl _, refused (k := .halt) rfl _⟩
  · have refused {k : RequestKind} (any : RequestKind.programOnly k = false) (act : VoiceId → State → State × Reply) :=
      next_congr (serve_voice_badValue h any tag out act)
    exact ⟨refused (k := .play) rfl _, refused (k := .stop) rfl _, refused (k := .voiceGain) rfl _⟩
  · subst e
    have refused {k : RequestKind} (any : RequestKind.programOnly k = false) (act : VoiceId → State → State × Reply) :=
      next_congr (serve_voice_notOwner h any tag other act)
    exact ⟨refused (k := .play) rfl _, refused (k := .stop) rfl _, refused (k := .voiceGain) rfl _⟩

end Sys2Proof.Machine

namespace Sys2Proof.Machine

open Sys2Proof.Safety

/-! ### Clamping (00_scope.md, Arithmetic) -/

theorem clampInt_eq {lo hi : Int} (h : lo ≤ hi) (x : Int) : clampInt lo hi x = max lo (min hi x) := by
  unfold clampInt
  split
  · omega
  · split <;> omega

/-- R11: a field of a change set as it becomes pending. -/
theorem clampField_taken {lo hi : Nat} (h : lo ≤ hi) (new : Option Int) (old : Option Nat) :
    ((clampField lo hi new).1 <|> old) = taken lo hi new old := by
  cases new with
  | none => rfl
  | some x => exact congrArg (fun y : Int => some y.toNat) (clampInt_eq (by omega) x)

theorem clampField_cut (lo hi : Nat) (new : Option Int) : (clampField lo hi new).2 = cut lo hi new := by
  cases new <;> rfl

/-! ### MOTOR_SET (R11, R13) -/

theorem Motor.driving_iff (mo : Motor) : mo.driving = true ↔ mo.state = .running ∨ mo.state = .holding := by
  simp [Motor.driving]

theorem motorSetEnumsOk_iff (f : MotorSetFields) :
    motorSetEnumsOk f = true ↔ f.polarity ≠ some .outside ∧ f.lossAction ≠ some .outside := by
  simp [motorSetEnumsOk]

theorem polarityBusy_known {f : MotorSetFields} {pol : Polarity} (h : f.polarity = some (.known pol)) (mo : Motor) :
    polarityBusy f mo = true ↔ pol ≠ mo.config.polarity ∧ (mo.state = .running ∨ mo.state = .holding) := by
  simp [polarityBusy, h, Coded.get?, Motor.driving_iff]

/-- R11: what an accepted change set leaves pending, beside what was. -/
theorem mergePending_eq (p : PendingConfig) (f : MotorSetFields) :
    mergePending p f =
      { dutyLimit := taken 0 1000 f.dutyLimit p.dutyLimit
        kp := taken 0 65535 f.kp p.kp
        kv := taken 0 65535 f.kv p.kv
        ki := taken 0 65535 f.ki p.ki
        kf := taken 0 65535 f.kf p.kf
        stallCurrent := taken 100 4000 f.stallCurrent p.stallCurrent
        stallSpeed := taken 1 500 f.stallSpeed p.stallSpeed
        stallTime := taken 50 2000 f.stallTime p.stallTime
        tripCurrent := taken 100 6000 f.tripCurrent p.tripCurrent
        lossAction := (f.lossAction.bind Coded.get?).or p.lossAction } := by
  unfold mergePending
  simp only [clampField_taken (show 0 ≤ 1000 by decide), clampField_taken (show 0 ≤ 65535 by decide),
    clampField_taken (show 100 ≤ 4000 by decide), clampField_taken (show 1 ≤ 500 by decide),
    clampField_taken (show 50 ≤ 2000 by decide), clampField_taken (show 100 ≤ 6000 by decide)]
  cases f.lossAction.bind Coded.get? <;> rfl

theorem motorSetClamped_eq (f : MotorSetFields) :
    motorSetClamped f =
      (cut 0 1000 f.dutyLimit || cut 0 65535 f.kp || cut 0 65535 f.kv || cut 0 65535 f.ki || cut 0 65535 f.kf ||
        cut 100 4000 f.stallCurrent || cut 1 500 f.stallSpeed || cut 50 2000 f.stallTime ||
        cut 100 6000 f.tripCurrent) := by
  simp only [motorSetClamped, clampField_cut]
  rfl

/-- R13: the polarity of an accepted change set is in force at once, and a change of it refills the history. -/
theorem Motor.takePolarity_eq {x : Option Polarity} {pol : Polarity} {mo : Motor}
    (h : x = some pol ∨ (x = none ∧ pol = mo.config.polarity)) :
    mo.takePolarity x =
      { mo with
        config := { mo.config with polarity := pol }
        history := if pol = mo.config.polarity then mo.history else List.replicate 16 mo.position } := by
  obtain rfl | ⟨rfl, rfl⟩ := h
  · by_cases same : pol = mo.config.polarity
    · subst same; simp [Motor.takePolarity]
    · simp [Motor.takePolarity, Motor.refill, same]
  · simp [Motor.takePolarity]

theorem motorSet_accepted {f : MotorSetFields} {m : MotorId} {s : State} (good : motorSetEnumsOk f = true)
    (idle : polarityBusy f (s.motor m) = false) :
    motorSet f m s =
      (s.setMotor m ((s.motor m).change f),
        Reply.ok (motorSetClamped f)
          (.motorConfig (adopted ((s.motor m).change f).config ((s.motor m).change f).pendingConfig))) := by
  simp [motorSet, good, idle]

/-- Settles O19: the three outcomes of MOTOR_SET at its owner, by the order of its checks. -/
theorem motorSetMakesFieldsPending : Obligations.MotorSetMakesFieldsPending := by
  unfold Obligations.MotorSetMakesFieldsPending
  intro s src i tag m f h own
  refine ⟨fun outside => ?_, fun pol p loss differs driven => ?_, fun pol p loss free => ?_⟩
  · refine next_congr (serve_motor_refused (k := .motorSet) h rfl tag own (by decide) fun t _ => ?_)
    have bad : motorSetEnumsOk f = false := by
      rw [← Bool.not_eq_true, motorSetEnumsOk_iff]
      tauto
    simp [motorSet, bad]
  · refine next_congr (serve_motor_refused (k := .motorSet) h rfl tag own (by decide) fun t e => ?_)
    have good : motorSetEnumsOk f = true := (motorSetEnumsOk_iff f).2 ⟨by simp [p], loss⟩
    have busy : polarityBusy f (t.motor m) = true := by
      rw [e, reserved_motor]; exact (polarityBusy_known p _).2 ⟨differs, driven⟩
    simp [motorSet, good, busy]
  · have good : motorSetEnumsOk f = true :=
      (motorSetEnumsOk_iff f).2 ⟨by rcases p with p | ⟨p, -⟩ <;> simp [p], loss⟩
    have idle : polarityBusy f (s.motor m) = false := by
      rcases p with p | ⟨p, -⟩
      · rw [← Bool.not_eq_true, polarityBusy_known p]
        tauto
      · simp [polarityBusy, p]
    have change : (s.motor m).change f = _ :=
      Motor.takePolarity_eq (pol := pol) (by
        rcases p with p | ⟨p, e⟩
        · exact .inl (by rw [p]; rfl)
        · exact .inr ⟨by rw [p]; rfl, e⟩)
    refine next_congr (serve_motor_accepted (k := .motorSet) h rfl tag own ?_)
    rw [motorSet_accepted good (by rwa [reserved_motor]), reserved_motor, reserved_setMotor, change,
      motorSetClamped_eq, mergePending_eq]

/-! ### ZERO and CLEAR_FAULT (R14, R18) -/

/-- Settles O22: ZERO and CLEAR_FAULT at their owner, by the state of the motor. -/
theorem zeroAndClearFault : Obligations.ZeroAndClearFault := by
  unfold Obligations.ZeroAndClearFault
  refine ⟨fun s src i tag m value h own => ⟨fun running => ?_, fun free => ?_⟩,
    fun s src i tag m h own => ⟨fun well => ?_, fun fault => ?_⟩⟩
  · refine next_congr (serve_motor_refused (k := .zero) h rfl tag own (by decide) fun t e => ?_)
    rw [zeroMotor, if_pos (by rw [e, reserved_motor]; exact running)]
  · refine next_congr (serve_motor_accepted (k := .zero) h rfl tag own ?_)
    rw [zeroMotor, reserved_motor, if_neg free, State.modMotor, reserved_motor, reserved_setMotor]
    rfl
  · refine next_congr (serve_motor_refused (k := .clearFault) h rfl tag own (by decide) fun t e => ?_)
    rw [clearFault, if_neg (by rw [e, reserved_motor]; exact well)]
  · refine next_congr (serve_motor_accepted (k := .clearFault) h rfl tag own ?_)
    have leave : ((reserved s src i (RequestKind.code .clearFault) tag).motor m).state ≠ .idle := by
      rw [reserved_motor, fault]; decide
    rw [clearFault, reserved_motor, if_pos fault, enterRest_of_ne leave, reserved_motor, reserved_setMotor,
      reserved_releaseSupply]
    rfl

end Sys2Proof.Machine

namespace Sys2Proof.Machine

open Sys2Proof.Safety

/-! ### The state after reset, one record of each bank -/

@[simp] theorem motor_reset (m : MotorId) : State.reset.motor m = Motor.reset := by simp [State.motor, State.reset]
@[simp] theorem voice_reset (v : VoiceId) : State.reset.voice v = Voice.reset := by simp [State.voice, State.reset]
@[simp] theorem chain_reset (p : PortId) : State.reset.chain p = Chain.reset := by simp [State.chain, State.reset]
@[simp] theorem channel_reset (c : ChannelId) : State.reset.channel c = Channel.unmapped := by
  simp [State.channel, State.reset]
@[simp] theorem watch_reset (n : EntryId) : State.reset.watch n = none := by simp [State.watch, State.reset]
@[simp] theorem reaction_reset (n : EntryId) : State.reset.reaction n = none := by simp [State.reaction, State.reset]
@[simp] theorem clip_reset (n : ClipId) : State.reset.clip n = none := by simp [State.clip, State.reset]
@[simp] theorem cue_reset (n : CueId) : State.reset.cue n = none := by simp [State.cue, State.reset]
@[simp] theorem sub_reset (n : SubId) : State.reset.sub n = none := by simp [State.sub, State.reset]
@[simp] theorem claim_reset (r : Resource) : State.reset.claim r = Claim.none := by
  cases r <;> simp [State.claim, State.reset]
@[simp] theorem supply_reset (r : Resource) : State.reset.governor.supply r = ⟨0, 0⟩ := by
  cases r <;> simp [Governor.supply, State.reset, Governor.reset]

/-- R137: windows 1 to 3 are invalid after reset. -/
theorem window_reset {n : WindowId} (h : n ≠ 0) : State.reset.windows[n] = Window.invalid := by
  revert n; decide

/-- R184: a link unit after reset, its notices aside. -/
theorem link_reset (link : Source) :
    State.reset.link link = { LinkUnit.fresh with notices := (State.reset.link link).notices } := by
  cases link <;> rfl

/-- Settles O5: every bank of the state after reset is filled with the reset record of its chapter. -/
theorem resetValues : Obligations.ResetValues := by
  unfold Obligations.ResetValues
  refine ⟨rfl, fun m => ?_, rfl, supply_reset, claim_reset, fun p => ?_, channel_reset, rfl, fun n => ?_, fun _ => rfl,
    rfl, fun n h => ?_, clip_reset, cue_reset, fun v => ?_, rfl, sub_reset, fun link => ?_, rfl, rfl, rfl⟩
  · simp [Motor.reset, motorConfigReset, PendingConfig.empty]
  · simp [Chain.reset]
  · simp
  · simp [window_reset h, Window.invalid]
  · simp [Voice.reset]
  · rw [link_reset]
    simp [LinkUnit.fresh]

/-! ### Reads (R15, R70, R94, R103, R111) -/

theorem position_succ (k : ModulePos) : position (k.val + 1) = some k := by
  simp [position]

theorem position_out {n : Nat} (h : n = 0 ∨ 4 < n) : position n = none := by
  unfold position
  split
  · rfl
  · exact index_of_le (by omega)

theorem moduleName_in (p : PortId) (k : ModulePos) : moduleName p.val (k.val + 1) = some ⟨p, k⟩ := by
  simp [moduleName, position_succ]

theorem moduleName_out {n k : Nat} (h : 4 ≤ n ∨ k = 0 ∨ 4 < k) : moduleName n k = none := by
  unfold moduleName
  rcases h with h | h
  · rw [index_of_le h]
  · rw [position_out h]
    cases index 4 n <;> rfl

theorem mem_allChannels (ch : ChannelId) : ch ∈ allChannels := by revert ch; decide

theorem backs_iff (c : Channel) (n : ModuleName) :
    backs c n = true ↔ c.state ≠ .unmapped ∧ (c.primary = some n ∨ c.spare = some n) := by
  simp [backs]

/-- R106: the channel that a module backs names it and is not UNMAPPED. -/
theorem backedChannel_some {s : State} {n : ModuleName} {ch : ChannelId} (h : backedChannel s n = some ch) :
    (s.channel ch).state ≠ .unmapped ∧ ((s.channel ch).primary = some n ∨ (s.channel ch).spare = some n) :=
  (backs_iff _ _).1 (List.find?_some (p := fun c => backs (s.channel c) n) h)

/-- R106: a module that backs no channel is named by none that is not UNMAPPED. -/
theorem backedChannel_none {s : State} {n : ModuleName} (h : backedChannel s n = none) {ch : ChannelId}
    (mapped : (s.channel ch).state ≠ .unmapped) :
    (s.channel ch).primary ≠ some n ∧ (s.channel ch).spare ≠ some n := by
  have no := List.find?_eq_none.1 h ch (mem_allChannels ch)
  rw [backs_iff] at no
  tauto

/-- Settles O21: each of the five reads answers from the state as it stands, and changes nothing but its reply slot. -/
theorem readsReportTheStateAsItStands : Obligations.ReadsReportTheStateAsItStands := by
  unfold Obligations.ReadsReportTheStateAsItStands
  refine ⟨fun s src i tag h => ⟨fun m => ?_, fun n out => ?_⟩, fun s src i tag h => ?_,
    fun s src i tag h => ⟨fun p => ?_, fun n out => ?_⟩,
    fun s src i tag h => ⟨fun p k r held => ?_, fun p k out => ?_, fun n k out => ?_⟩,
    fun s src i tag h => ⟨fun ch => ?_, fun n out => ?_⟩⟩
  · refine next_congr (serve_unchanged (k := .motorRead) h rfl tag fun t e => ?_)
    rw [motorRead, index_val]
    subst e
    simp [motorReport, Reply.ok, State.grant]
  · refine next_congr (serve_unchanged (k := .motorRead) h rfl tag fun t _ => ?_)
    rw [motorRead, index_of_le out]
  · refine next_congr (serve_unchanged (k := .budgetRead) h rfl tag fun t e => ?_)
    subst e
    simp [budgetReport, Reply.ok, Governor.free]
  · refine next_congr (serve_unchanged (k := .chainRead) h rfl tag fun t e => ?_)
    rw [chainRead, index_val]
    subst e
    simp [chainReport, Reply.ok]
  · refine next_congr (serve_unchanged (k := .chainRead) h rfl tag fun t _ => ?_)
    rw [chainRead, index_of_le out]
  · refine ⟨backedChannel s ⟨p, k⟩, ?_, fun ch => backedChannel_some, fun none ch => backedChannel_none none⟩
    refine next_congr (serve_unchanged (k := .moduleRead) h rfl tag fun t e => ?_)
    have here : t.module p k = some r := by rw [e, reserved_module]; exact held
    have same : backedChannel t ⟨p, k⟩ = backedChannel s ⟨p, k⟩ := by subst e; simp [backedChannel]
    rw [moduleRead, moduleName_in]
    dsimp only
    rw [here, same]
    rfl
  · refine next_congr (serve_unchanged (k := .moduleRead) h rfl tag fun t e => ?_)
    have gone : t.module p k = none := by
      rw [e, reserved_module]; exact List.getElem?_eq_none out
    rw [moduleRead, moduleName_in]
    dsimp only
    rw [gone]
  · refine next_congr (serve_unchanged (k := .moduleRead) h rfl tag fun t _ => ?_)
    rw [moduleRead, moduleName_out out]
  · refine next_congr (serve_unchanged (k := .channelRead) h rfl tag fun t e => ?_)
    rw [channelRead, index_val]
    subst e
    simp [channelReport, channelAge, Reply.ok]
  · refine next_congr (serve_unchanged (k := .channelRead) h rfl tag fun t _ => ?_)
    rw [channelRead, index_of_le out]

end Sys2Proof.Machine

namespace Sys2Proof.Machine

open Sys2Proof.Safety

/-! ### Encoder and drive outputs (R1, R2) -/

/-- R2: the position after so many counts, NORMAL counting up and REVERSED down. -/
theorem Motor.count_eq (mo : Motor) (n : Int) :
    mo.count n =
      { mo with
        position := if mo.config.polarity = .reversed then mo.position - BitVec.ofInt 32 n
          else mo.position + BitVec.ofInt 32 n } := by
  unfold Motor.count
  split
  · rw [BitVec.ofInt_neg, ← BitVec.sub_eq_add_neg]
  · rfl

/-- R1: the pins that a carrier period gives port `m`. -/
theorem getElem_carrierPins (f : MotorId → PwmPins) (m : MotorId) :
    #v[f 0, f 1, f 2, f 3, f 4, f 5][m] = f m := by
  fin_cases m <;> rfl

/-- Settles O25: the sixteen changes of the two lines by the forward sequence, and the drive of each state. -/
theorem encoderCountsAndCarrierDrives : Obligations.EncoderCountsAndCarrierDrives := by
  unfold Obligations.EncoderCountsAndCarrierDrives
  refine ⟨fun s m a b => ?_, fun s => ⟨_, rfl, rfl, fun m => ?_⟩⟩
  · refine next_congr ?_
    rw [State.modMotor, Motor.count_eq]
    rcases s.encoder[m] with ⟨_ | _, _ | _⟩ <;> cases a <;> cases b <;> rfl
  · refine (getElem_carrierPins (fun m => driveLevels (s.motor m)) m).trans ?_
    unfold driveLevels
    cases (s.motor m).state <;> rfl

end Sys2Proof.Machine

namespace Sys2Proof.Machine

open Sys2Proof.Safety

/-! ### The receive assembler and READY-in (R176, R177) -/

theorem sends_iff (s : State) (link : Source) : Sends s link ↔ ¬(link = .tablet ∧ s.linkUp = false) := by
  simp [Sends]

theorem startsBytes_iff (s : State) (link : Source) :
    s.startsBytes link = true ↔ (s.link link).readyIn = true ∧ Sends s link := by
  cases link <;> simp [State.startsBytes, State.sendsFrames, Sends, and_comm]

/-- R177: a byte on a link that is up goes to the assembler. -/
theorem exec_byteReceived {s : State} {link : Source} (up : Sends s link) (b : Byte) :
    exec (.byteReceived link b) s = .next (assemble link b s) :=
  next_congr (if_neg ((sends_iff s link).1 up))

theorem assemble_hunting {s : State} {link : Source} (h : (s.link link).rx = .hunting) (b : Byte) :
    assemble link b s = if b = 0xA5#8 then s.setRx link .awaitLen else s := by
  unfold assemble; rw [h]

theorem assemble_awaitLen {s : State} {link : Source} (h : (s.link link).rx = .awaitLen) (b : Byte) :
    assemble link b s =
      if 2 ≤ b.toNat ∧ b.toNat ≤ 252 then s.setRx link (.collecting b []) else s.setRx link .hunting := by
  unfold assemble; rw [h]
  exact apply_ite (s.setRx link) _ _ _

theorem assemble_collecting {s : State} {link : Source} {len : Byte} {got : List Byte}
    (h : (s.link link).rx = .collecting len got) (b : Byte) :
    assemble link b s =
      if got.length < len.toNat then s.setRx link (.collecting len (got ++ [b]))
      else checkFrame link len got b (s.setRx link .hunting) := by
  unfold assemble; rw [h]

theorem checkFrame_bad {len check : Byte} {got : List Byte} (bad : crc8 (len :: got) ≠ check) (link : Source)
    (s : State) : checkFrame link len got check s = s := by
  unfold checkFrame; rw [if_neg bad]

/-- R176: READY-in sets its level alone, but when it falls inside a frame. -/
theorem exec_readyInChange_level {s : State} {link : Source} {high : Bool}
    (h : high = true ∨ (s.link link).readyIn = false ∨ (s.link link).tx = none) :
    exec (.readyInChange link high) s = .next (s.setLink link { s.link link with readyIn := high }) := by
  refine next_congr ?_
  split
  · rename_i ready busy
    rw [ready, busy] at h
    simp at h
  · rfl

/-- R176: READY-in falls inside a frame. -/
theorem exec_readyInChange_fall {s : State} {link : Source} {f : TxFrame} (ready : (s.link link).readyIn = true)
    (busy : (s.link link).tx = some f) :
    exec (.readyInChange link false) s = .next (s.setLink link ((s.link link).pause link f)) := by
  refine next_congr ?_
  rw [ready, busy]

/-- R176: a change of READY-in keeps the frame in progress, and the level decides whether a byte may start. -/
theorem readyInChange_keeps {s t : State} {link : Source} {high : Bool}
    (h : exec (.readyInChange link high) s = .next t) :
    (t.link link).tx = (s.link link).tx ∧ (t.startsBytes link = true ↔ high = true ∧ Sends s link) := by
  have set (l : LinkUnit) (tx : l.tx = (s.link link).tx) (ready : l.readyIn = high) (e : t = s.setLink link l) :
      (t.link link).tx = (s.link link).tx ∧ (t.startsBytes link = true ↔ high = true ∧ Sends s link) := by
    subst e
    rw [startsBytes_iff, State.link_setLink_self, tx, ready]
    simp [Sends]
  by_cases level : high = true ∨ (s.link link).readyIn = false ∨ (s.link link).tx = none
  · rw [exec_readyInChange_level level] at h
    cases h
    exact set { s.link link with readyIn := high } rfl rfl rfl
  · simp only [not_or, Bool.not_eq_true, Bool.not_eq_false] at level
    obtain ⟨rfl, ready, busy⟩ := level
    obtain ⟨f, frame⟩ := Option.ne_none_iff_exists'.1 busy
    rw [exec_readyInChange_fall ready frame] at h
    cases h
    exact set ((s.link link).pause link f) rfl rfl rfl

/-! ### Complete frames (R178) -/

/-- R178: a frame of a request kind goes to the block of its kind. -/
theorem takeFrame_code (k : RequestKind) (src : Source) (tag : Byte) (body : List Byte) (s : State) :
    takeFrame src (RequestKind.code k) tag body s = serveLater k src tag (checkedAct k src body) s := by
  have known : kindOf (RequestKind.code k) = some k := (Laws.RequestRow.every k).2.1
  unfold takeFrame; rw [known]

/-- R178 steps 3 and 4: a body of its kind's length is what its block does with the fields that it spells. -/
theorem serve_eq_takeFrame {k : RequestKind} {src : Source} {body : List Byte} {act : State → State × Reply}
    (fits : bodyFits k body = true) (spelt : blockAct k src body = now act) (tag : Byte) (s : State) :
    serve k src tag act s = takeFrame src (RequestKind.code k) tag body s := by
  have checked : checkedAct k src body = now act := by
    funext slot t
    rw [checkedAct, if_pos fits, spelt]
  rw [takeFrame_code, checked]
  rfl

theorem bodyFits_of_length {k : RequestKind} {n : Nat} (len : bodyLength k = (n, n)) {body : List Byte}
    (h : body.length = n) : bodyFits k body = true := by
  simp [bodyFits, len, h]

theorem kindOf_eq_none {kind : Byte} (h : ∀ k, RequestKind.code k ≠ kind) : kindOf kind = none := by
  simp [kindOf, List.find?_eq_none, h]

/-- R178 step 3, R159: a request frame of a wrong length. -/
theorem takeFrame_badLength {s : State} {src : Source} {i : Fin 8} (h : Accepts s src i) {k : RequestKind}
    (permitted : RequestKind.programOnly k = true → src = .program) {body : List Byte}
    (misfit : bodyFits k body = false) (tag : Byte) :
    takeFrame src (RequestKind.code k) tag body s =
      answered s src i (RequestKind.code k) tag (linkRefusal k .badLength s) := by
  rw [takeFrame_code, serveLater_accepted h k tag _ permitted]
  simp only [checkedAct, misfit, Bool.false_eq_true, if_false]
  rw [post_reserved_eq_answered, reserved, linkRefusal_setLink]

/-! ### Little-endian numbers (R176) -/

theorem numberOf_cons (n : Byte) (rest : List Byte) : numberOf (n :: rest) = n.toNat := by
  simp [numberOf, leNat]

/-- R176: the number of two bytes, unsigned or signed. -/
theorem numberBody_pair (signed : Bool) (lo hi : Byte) :
    numberBody signed [lo, hi] = (lo.toNat + 256 * hi.toNat : Int) ∨
      numberBody signed [lo, hi] =
        if (lo.toNat + 256 * hi.toNat : Int) < 32768 then (lo.toNat + 256 * hi.toNat : Int)
        else (lo.toNat + 256 * hi.toNat : Int) - 65536 := by
  cases signed with
  | false => left; simp [numberBody, leNat]
  | true =>
    right
    have unsigned : leNat [lo, hi] = lo.toNat + 256 * hi.toNat := by simp [leNat]
    have width : 256 ^ [lo, hi].length = 65536 := by norm_num
    rw [numberBody, if_pos rfl, leInt, unsigned, width]
    by_cases small : lo.toNat + 256 * hi.toNat < 32768
    · rw [if_pos (by omega), if_pos (by omega)]; push_cast; rfl
    · rw [if_neg (by omega), if_neg (by omega)]; push_cast; rfl

/-- R176: a number of a body is read from a run of its bytes. -/
theorem bodyInt_run (k : RequestKind) (j : Nat) (body : List Byte) :
    ∃ first count, bodyInt k j body = leNat ((body.drop first).take count) ∨
      bodyInt k j body = leInt ((body.drop first).take count) := by
  refine ⟨(Config.numberPlace k j body).first, (Config.numberPlace k j body).count, ?_⟩
  cases signed : (Config.numberPlace k j body).signed <;> simp [bodyInt, numberBody, signed, fieldAt]

/-- R176: a number of `count` bytes stands inside its body. -/
theorem sizedField_run (k : RequestKind) (j count : Nat) (body : List Byte) :
    ∃ first ≤ body.length - count, sizedField k j count body = (body.drop first).take count :=
  ⟨_, Nat.min_le_right _ _, rfl⟩

/-- R11: a gain that a MOTOR_SET body spells. -/
theorem gain_run {body : List Byte} (len : body.length = 23) {j : Nat} {x : Option Int} {y : Int}
    (h : (x.map fun _ => (leNat (sizedField .motorSet j 2 body) : Int)) = some y) :
    ∃ first ≤ 21, y = leNat ((body.drop first).take 2) := by
  obtain ⟨first, inside, run⟩ := sizedField_run .motorSet j 2 body
  obtain ⟨_, _, rfl⟩ := Option.map_eq_some_iff.1 h
  exact ⟨first, by omega, by rw [run]⟩

/-- Table 11-4: a stored segment that an action holds is the segment record of its place. -/
theorem storedAction_segment {record : List Byte} {x : RawAction} {m : Nat} {r : RawSegment} {replace : Bool}
    (h : storedAction record x = .segment m r replace) : r = segmentRecord record := by
  cases x with
  | segment => cases h; rfl
  | _ => cases h

/-- Settles O8: the assembler and READY-in by their cases, and each frame as the request that its body spells. -/
theorem assemblerTakesBytes : Obligations.AssemblerTakesBytes := by
  unfold Obligations.AssemblerTakesBytes
  refine ⟨fun s link b => ⟨fun down => ?_, fun up hunting => ?_, fun up awaits => ?_, fun len got up collects more => ?_,
      fun len got up collects whole bad => ?_⟩, fun s link => ⟨?_, fun quiet => ?_, fun f ready busy => ?_,
      fun high t => readyInChange_keeps, rfl⟩, fun s src tag n record len => ?_, fun s src tag lo hi => ?_,
    fun s src tag body => ?_, fun s src tag body len => ?_, fun s src i tag k body h permitted misfit => ?_⟩
  · exact next_congr (if_pos down)
  · rw [exec_byteReceived up, assemble_hunting hunting]; rfl
  · rw [exec_byteReceived up, assemble_awaitLen awaits]; rfl
  · rw [exec_byteReceived up, assemble_collecting collects, if_pos more]; rfl
  · rw [exec_byteReceived up, assemble_collecting collects, if_neg (by omega), checkFrame_bad bad]; rfl
  · exact exec_readyInChange_level (.inl rfl)
  · exact exec_readyInChange_level (.inr quiet)
  · obtain ⟨least, most⟩ := LinkUnit.begun_pause link f (s.link link)
    exact ⟨_, least, most, exec_readyInChange_fall ready busy⟩
  · -- the kinds without a body, those of one byte, SEG, and every KIND that is none
    have one {k : RequestKind} (fits : bodyLength k = (1, 1)) {act : Nat → State → State × Reply}
        (spelt : blockAct k src [n] = now (act (numberOf [n]))) :
        serve k src tag (act n.toNat) s = takeFrame src (RequestKind.code k) tag [n] s := by
      rw [numberOf_cons] at spelt
      exact serve_eq_takeFrame (bodyFits_of_length fits rfl) spelt tag s
    have two := next_congr (serve_eq_takeFrame (k := .seg) (src := src) (body := n :: record)
      (bodyFits_of_length rfl (by simp [len])) rfl tag s)
    rw [segBody, numberOf_cons] at two
    refine ⟨next_congr (serve_eq_takeFrame (k := .ident) rfl rfl tag s),
      next_congr (serve_eq_takeFrame (k := .reset) rfl rfl tag s),
      next_congr (serve_eq_takeFrame (k := .budgetRead) rfl rfl tag s),
      next_congr (one (k := .motorRead) (act := motorRead) rfl rfl),
      next_congr (one (k := .clearFault) (act := fun m => motorRequest m src clearFault) rfl rfl),
      next_congr (one (k := .chainRead) (act := chainRead) rfl rfl),
      next_congr (one (k := .mapClear) (act := mapClear) rfl rfl),
      next_congr (one (k := .channelRead) (act := channelRead) rfl rfl),
      next_congr (one (k := .watchClear) (act := watchClear src) rfl rfl),
      next_congr (one (k := .reactClear) (act := reactClear src) rfl rfl),
      next_congr (one (k := .clipRemove) (act := clipRemove src) rfl rfl),
      next_congr (one (k := .cueClear) (act := cueClear src) rfl rfl),
      next_congr (one (k := .unsubscribe) (act := unsubscribe src) rfl rfl), two, fun none body => next_congr ?_⟩
    rw [takeFrame, kindOf_eq_none none]
    rfl
  · exact ⟨_, _, next_congr (serve_eq_takeFrame (k := .budgetSet) rfl rfl tag s),
      next_congr (serve_eq_takeFrame (k := .masterSet) rfl rfl tag s), numberBody_pair _ lo hi, numberBody_pair _ lo hi⟩
  · have taken {k : RequestKind} {width : Nat} (fits : bodyLength k = (width, width)) (len : body.length = width)
        {act : State → State × Reply} (spelt : blockAct k src body = now act) :=
      next_congr (serve_eq_takeFrame (bodyFits_of_length fits len) spelt tag s)
    refine ⟨fun len => ⟨_, taken (k := .claim) rfl len rfl, _, _, rfl⟩,
      fun len => ⟨_, _, taken (k := .motorSet) rfl len rfl, fun x gain => ?_⟩, fun len => ?_,
      fun len => ⟨_, _, taken (k := .voiceGain) rfl len rfl, bodyInt_run _ _ _⟩,
      fun len => ⟨_, taken (k := .windowSet) rfl len rfl, ⟨_, _, rfl⟩, _, _, rfl⟩,
      fun len => ⟨_, _, taken (k := .storeRead) rfl len rfl, ⟨_, _, rfl⟩, _, _, rfl⟩,
      fun len => ⟨_, taken (k := .mapSet) rfl len rfl, bodyInt_run _ _ _, bodyInt_run _ _ _, bodyInt_run _ _ _⟩⟩
    · rcases gain with gain | gain | gain | gain <;> exact gain_run len gain
    · obtain ⟨first, inside, run⟩ := sizedField_run .zero 0 4 body
      have zero := taken (k := .zero) rfl len
        (act := motorRequest (zeroBody body).1 src (zeroMotor (zeroBody body).2)) rfl
      rw [zeroBody, run] at zero
      exact ⟨Config.zeroBody body, first, by omega, zero⟩
  · exact ⟨_, next_congr (serve_eq_takeFrame (k := .reactSet) (bodyFits_of_length rfl len) rfl tag s),
      fun m record replace stored => ⟨_, Nat.le_of_lt_succ (Config.reactSegmentPlace body).isLt,
        storedAction_segment stored⟩⟩
  · have unfit : bodyFits k body = false := by
      rw [← Bool.not_eq_true]
      simp only [bodyFits, Bool.and_eq_true, decide_eq_true_eq]
      omega
    rw [takeFrame_badLength h permitted unfit]
    cases k <;> rfl

end Sys2Proof.Machine

namespace Sys2Proof.Machine

open Sys2Proof.Safety

/-! ### Updates of one motor -/

theorem State.modMotor_eq (s : State) (m : MotorId) (f : Motor → Motor) :
    s.modMotor m f = s.setMotor m (f (s.motor m)) := rfl

@[simp] theorem State.motor_modMotor_self (s : State) (m : MotorId) (f : Motor → Motor) :
    (s.modMotor m f).motor m = f (s.motor m) := State.motor_setMotor_self s m _

/-- Work at motor `m` alone: the other motors and the other grants stay, and so does what is not motion's. -/
structure AtMotor (m : MotorId) (s t : State) : Prop where
  motors : ∀ k, k ≠ m → t.motor k = s.motor k
  supplies : ∀ r, r ≠ .motor m → t.governor.supply r = s.governor.supply r
  voices : t.voices = s.voices
  reactions : t.reactions = s.reactions
  quiet : Quiet s t

theorem AtMotor.refl (m : MotorId) (s : State) : AtMotor m s s :=
  ⟨fun _ _ => rfl, fun _ _ => rfl, rfl, rfl, Quiet.refl s⟩

theorem AtMotor.trans {m : MotorId} {a b c : State} (h : AtMotor m a b) (k : AtMotor m b c) : AtMotor m a c :=
  ⟨fun n e => (k.motors n e).trans (h.motors n e), fun r e => (k.supplies r e).trans (h.supplies r e),
    k.voices.trans h.voices, k.reactions.trans h.reactions, h.quiet.trans k.quiet⟩

theorem atMotor_setMotor (s : State) (m : MotorId) (x : Motor) : AtMotor m s (s.setMotor m x) :=
  ⟨fun _ e => State.motor_setMotor_ne s x e.symm, fun _ _ => rfl, rfl, rfl, quiet_setMotor s m x⟩

theorem atMotor_modMotor (s : State) (m : MotorId) (f : Motor → Motor) : AtMotor m s (s.modMotor m f) :=
  atMotor_setMotor s m _

theorem atMotor_setSupply {s t : State} {m : MotorId} {x : Supply}
    (e : t = { s with governor := s.governor.setSupply (.motor m) x }) (q : Quiet s t) : AtMotor m s t := by
  subst e
  exact ⟨fun _ _ => rfl, fun r n => by simp [Governor.supply_setSupply, n.symm], rfl, rfl, q⟩

theorem atMotor_askSupply (s : State) (m : MotorId) (a : Nat) : AtMotor m s (s.askSupply (.motor m) a) :=
  atMotor_setSupply rfl (quiet_askSupply s _ a)

theorem atMotor_releaseSupply (s : State) (m : MotorId) : AtMotor m s (s.releaseSupply (.motor m)) :=
  atMotor_setSupply rfl (quiet_releaseSupply s _)

theorem atMotor_place (m : MotorId) (s : State) (a : Source) (b : NoticeBody) : AtMotor m s (s.place a b) :=
  ⟨fun k _ => State.motor_place s a b k, fun _ _ => by rw [State.place_governor], State.place_voices s a b,
    State.place_reactions s a b, quiet_place s a b⟩

theorem atMotor_enterRest (m : MotorId) (st : MotorState) (s : State) : AtMotor m s (enterRest m st s) := by
  unfold enterRest; split
  · exact .refl m s
  · exact (atMotor_modMotor s m _).trans (atMotor_releaseSupply _ m)

theorem atMotor_applyStop (m : MotorId) (a : StopAction) (s : State) : AtMotor m s (applyStop m a s) := by
  cases a with
  | coast => exact atMotor_enterRest m .idle s
  | brake => exact atMotor_enterRest m .braked s
  | hold => exact atMotor_modMotor s m _

theorem atMotor_stopAction (m : MotorId) (reason : EndReason) (a : StopAction) (s : State) :
    AtMotor m s (stopAction m reason a s).1 := by
  have stop := (atMotor_modMotor s m Motor.cleared).trans (atMotor_applyStop m a _)
  unfold stopAction
  dsimp only
  split
  · exact .refl m s
  · split
    · exact stop
    · exact stop.trans (atMotor_place m _ _ _)

theorem enterRest_of_eq {m : MotorId} {st : MotorState} {s : State} (h : (s.motor m).state = st) :
    enterRest m st s = s := if_pos h

/-- R7, R63: the motor and its supply after entry to a state at rest that it was not in. -/
theorem motor_enterRest {m : MotorId} {st : MotorState} {s : State} (h : (s.motor m).state ≠ st) :
    (enterRest m st s).motor m = Motor.rest st (s.motor m) := by
  rw [enterRest_of_ne h]
  exact State.motor_setMotor_self s m _

theorem supply_enterRest {m : MotorId} {st : MotorState} {s : State} (h : (s.motor m).state ≠ st) :
    (enterRest m st s).governor.supply (.motor m) = ⟨0, 0⟩ := by
  rw [enterRest_of_ne h]
  exact Governor.supply_setSupply_self s.governor (.motor m) ⟨0, 0⟩

/-! ### A stop action (R7, R9, R37) -/

theorem stopAction_fault {m : MotorId} {s : State} (h : (s.motor m).state = .fault) (reason : EndReason)
    (a : StopAction) : stopAction m reason a s = (s, []) := if_pos h

/-- R9: the event that a stop action hands. -/
theorem events_stopAction {m : MotorId} {s : State} (h : (s.motor m).state ≠ .fault) (reason : EndReason)
    (a : StopAction) :
    (stopAction m reason a s).2 =
      match (s.motor m).active with
      | some x => [.segmentEnd m x.seg.tag reason false]
      | none => [] := by
  unfold stopAction
  rw [if_neg h]
  cases (s.motor m).active <;> rfl

/-- R9: the notice of a stop action changes no motor and no grant. -/
theorem stopAction_applies {m : MotorId} {s : State} (h : (s.motor m).state ≠ .fault) (reason : EndReason)
    (a : StopAction) :
    (stopAction m reason a s).1.motor m = (applyStop m a (s.modMotor m Motor.cleared)).motor m ∧
    (stopAction m reason a s).1.governor = (applyStop m a (s.modMotor m Motor.cleared)).governor := by
  unfold stopAction
  rw [if_neg h]
  cases (s.motor m).active with
  | none => exact ⟨rfl, rfl⟩
  | some x => exact ⟨State.motor_place _ _ _ m, State.place_governor _ _ _⟩

theorem motor_applyStop_hold (s : State) (m : MotorId) : (applyStop m .hold s).motor m = (s.motor m).holdStop :=
  State.motor_modMotor_self s m _

/-- R9, Table 1-4: the motor after a stop action. -/
theorem motor_stopAction {m : MotorId} {s : State} (h : (s.motor m).state ≠ .fault) (reason : EndReason)
    (a : StopAction) :
    (stopAction m reason a s).1.motor m =
      match a with
      | .coast => if (s.motor m).state = .idle then (s.motor m).cleared else Motor.rest .idle (s.motor m).cleared
      | .brake => if (s.motor m).state = .braked then (s.motor m).cleared else Motor.rest .braked (s.motor m).cleared
      | .hold => (s.motor m).cleared.holdStop := by
  rw [(stopAction_applies h reason a).1]
  have cleared : (s.modMotor m Motor.cleared).motor m = (s.motor m).cleared := State.motor_modMotor_self s m _
  have rests (st : MotorState) : (enterRest m st (s.modMotor m Motor.cleared)).motor m =
      if (s.motor m).state = st then (s.motor m).cleared else Motor.rest st (s.motor m).cleared := by
    split
    · rw [enterRest_of_eq (by rwa [cleared]), cleared]
    · rw [motor_enterRest (by rwa [cleared]), cleared]
  cases a with
  | coast => exact rests .idle
  | brake => exact rests .braked
  | hold => exact (motor_applyStop_hold _ m).trans (by rw [cleared])

/-- R9: a HOLD stop action, by the state that the motor is in. -/
theorem holdStop_cleared {mo : Motor} (h : mo.state ≠ .fault) :
    mo.cleared.holdStop =
      if mo.state = .running then
        { mo.cleared with state := .holding, refPos := mo.position, refFrac := 0, vRef := 0, accFrac := 0 }
      else if mo.state = .holding then mo.cleared
      else
        { mo.cleared with
          state := .holding, refPos := mo.position, refFrac := 0, vRef := 0, accFrac := 0, integ := 0
          stallMs := 0 } := by
  unfold Motor.holdStop Motor.cleared Motor.referenceHere
  cases st : mo.state
  case fault => exact absurd st h
  all_goals rfl

/-- R37: HALT of the owner, its action known. -/
theorem haltMotor_known (a : StopAction) (m : MotorId) (s : State) :
    haltMotor (.known a) m s =
      (afterEvents (stopAction m .halted a s),
        Reply.ok false
          (if (s.motor m).state = .fault then
            .halted 0 none ((afterEvents (stopAction m .halted a s)).motor m).state
          else
            .halted (s.motor m).queue.length ((s.motor m).active.map fun x => x.seg.tag)
              ((afterEvents (stopAction m .halted a s)).motor m).state)) := by
  by_cases fault : (s.motor m).state = .fault <;> simp [haltMotor, Coded.get?, haltDiscards, fault]

/-- Settles O24: HALT is its stop action with the reactions; a stop action, by the state of the motor and the action. -/
theorem haltStopsMotor : Obligations.HaltStopsMotor := by
  unfold Obligations.HaltStopsMotor
  refine ⟨fun s src i tag m h own => ⟨?_, fun a => ?_⟩, fun s m reason a => ⟨fun fault => stopAction_fault fault _ _,
    fun free => ⟨events_stopAction free _ _, ?_, ?_, ?_, ?_, ?_, link_stopAction free⟩, ?_⟩⟩
  · exact next_congr (serve_motor_refused (k := .halt) h rfl tag own (by decide) fun t _ => rfl)
  · refine ⟨_, next_congr (serve_motor_owned (k := .halt) h rfl tag own (haltMotor_known a m _)), ?_,
      quiet_afterEvents (quiet_stopAction m _ a _)⟩
    rw [reserved_motor]
    rfl
  · rw [motor_stopAction free, holdStop_cleared free]
    cases a <;> rfl
  · rintro rfl moving
    rw [(stopAction_applies free reason .coast).2]
    exact supply_enterRest (by rwa [State.motor_modMotor_self])
  · rintro rfl moving
    rw [(stopAction_applies free reason .brake).2]
    exact supply_enterRest (by rwa [State.motor_modMotor_self])
  · exact (atMotor_stopAction m reason a s).supplies
  · exact (atMotor_stopAction m reason a s).motors
  · have stop := atMotor_stopAction m reason a s
    exact ⟨stop.voices, stop.reactions, stop.quiet⟩

end Sys2Proof.Machine

namespace Sys2Proof.Machine

open Sys2Proof.Safety

/-! ### Notices and the links they go to -/

theorem SameLinks.refl (s : State) : SameLinks s s := ⟨rfl, rfl, rfl, rfl, rfl⟩

/-- A notice placed in two states of the same links leaves the same links. -/
theorem SameLinks.place {s t : State} (h : SameLinks s t) (a : Source) (n : NoticeBody) :
    SameLinks (s.place a n) (t.place a n) :=
  ⟨h.link_place a n .program, h.link_place a n .tablet, by rw [State.place_linkUp, State.place_linkUp, h.linkUp],
    by rw [State.place_time, State.place_time, h.time],
    by rw [State.place_motorClaims, State.place_motorClaims, h.claims]⟩

theorem ownerLink_place (s : State) (a : Source) (n : NoticeBody) (m : MotorId) :
    (s.place a n).ownerLink (.motor m) = s.ownerLink (.motor m) := by
  simp [State.ownerLink, State.owner, State.claim]

/-- R40: a SEGMENT_END notice goes to the link that the owner had before. -/
theorem SameLinks.endNotice {s t : State} (h : SameLinks s t) (m : MotorId) (a : Active) (reason : EndReason)
    (blended : Bool) (pos : Word) (n : Nat) :
    SameLinks (s.place (s.ownerLink (.motor m)) (.segmentEnd m a.seg.tag reason blended pos n s.time))
      (endNotice m a reason blended pos n t) := by
  unfold Machine.endNotice
  rw [h.ownerLink, h.time]
  exact h.place _ _

/-- R17: a MOTOR_FAULT notice goes to the link that the owner had before. -/
theorem SameLinks.faultNotice {s t : State} (h : SameLinks s t) (m : MotorId) (cause : MotorFaultCause) :
    SameLinks
      (s.place (s.ownerLink (.motor m)) (.motorFault m cause (t.motor m).sampled (t.motor m).iAvg s.time))
      (faultNotice m cause t) := by
  unfold Machine.faultNotice
  rw [h.ownerLink, h.time]
  exact h.place _ _

/-! ### What an operation of the motion controller leaves -/

/-- The operation's outcome `x` from state `s`: the events `es`, the motor `mo`, the links of `links`, and nothing
else changed but the motor's grant. -/
structure Leaves (m : MotorId) (s links : State) (x : State × List Event) (es : List Event) (mo : Motor) : Prop where
  events : x.2 = es
  motor : x.1.motor m = mo
  links : SameLinks links x.1
  atMotor : AtMotor m s x.1

/-- The same outcome, seen from the state before other work at the motor. -/
theorem Leaves.since {m : MotorId} {r s links links' : State} {x : State × List Event} {es : List Event} {mo : Motor}
    (h : Leaves m s links' x es mo) (before : AtMotor m r s) (same : SameLinks links links') :
    Leaves m r links x es mo :=
  ⟨h.events, h.motor, same.trans h.links, before.trans h.atMotor⟩

theorem Leaves.reactAll {m : MotorId} {s links : State} {x : State × List Event} {es : List Event} {mo : Motor}
    (h : Leaves m s links x es mo) : afterEvents x = reactAll es x.1 := by
  rw [afterEvents, h.events]

theorem Leaves.pair {m : MotorId} {s links : State} {x : State × List Event} {es : List Event} {mo : Motor}
    (h : Leaves m s links x es mo) : x = (x.1, es) := Prod.ext rfl h.events

theorem atMotor_applyEndAction (m : MotorId) (e : EndAction) (ref : HoldRef) (s : State) :
    AtMotor m s (applyEndAction m e ref s) := by
  cases e with
  | coast => exact atMotor_enterRest m .idle s
  | brake => exact atMotor_enterRest m .braked s
  | hold => unfold applyEndAction; exact atMotor_modMotor s m _
  | blend => unfold applyEndAction; exact atMotor_modMotor s m _

/-- R29: the state of an end by DONE, CONDITION or STALL_OK, before its notice. -/
def endActionTaken (m : MotorId) (a : Active) (ref : HoldRef) (s : State) : State :=
  applyEndAction m a.seg.endAction ref (s.setMotor m { s.motor m with active := none })

theorem endByAction_some {m : MotorId} {s : State} {a : Active} (h : (s.motor m).active = some a) (reason : EndReason)
    (ref : HoldRef) (pos : Word) :
    endByAction m reason ref pos s =
      (endNotice m a reason false pos 0 (endActionTaken m a ref s), [.segmentEnd m a.seg.tag reason false]) := by
  unfold endByAction; rw [h]; rfl

theorem endByForce_some {m : MotorId} {s : State} {a : Active} (h : (s.motor m).active = some a) (reason : EndReason)
    (st : MotorState) (pos : Word) :
    endByForce m reason st pos s =
      (endNotice m a reason false pos (s.motor m).queue.length
        (enterRest m st (s.setMotor m (s.motor m).cleared)), [.segmentEnd m a.seg.tag reason false]) := by
  unfold endByForce; rw [h]; rfl

/-- R28, R29, R40: an end by DONE, CONDITION or STALL_OK. -/
theorem leaves_endByAction {m : MotorId} {s : State} {a : Active} (h : (s.motor m).active = some a)
    (reason : EndReason) (ref : HoldRef) (pos : Word) :
    Leaves m s (s.place (s.ownerLink (.motor m)) (.segmentEnd m a.seg.tag reason false pos 0 s.time))
      (endByAction m reason ref pos s) [.segmentEnd m a.seg.tag reason false] ((endActionTaken m a ref s).motor m) := by
  rw [endByAction_some h]
  exact ⟨rfl, State.motor_place _ _ _ m,
    ((sameLinks_setMotor s m _).trans (sameLinks_applyEndAction m _ ref _)).endNotice m a reason false pos 0,
    ((atMotor_setMotor s m _).trans (atMotor_applyEndAction m _ ref _)).trans (atMotor_place m _ _ _)⟩

theorem motor_endActionTaken {m : MotorId} {s : State} (run : (s.motor m).state = .running) (a : Active) (pos : Word) :
    (endActionTaken m a (.here pos) s).motor m = endedBy a.seg.endAction pos (s.motor m) :=
  motor_applyEndAction run _ pos

/-- R29: an end action COAST or BRAKE of a RUNNING motor releases the grant. -/
theorem supply_endByAction {m : MotorId} {s : State} {a : Active} (h : (s.motor m).active = some a)
    (run : (s.motor m).state = .running) (rests : a.seg.endAction = .coast ∨ a.seg.endAction = .brake)
    (reason : EndReason) (ref : HoldRef) (pos : Word) :
    (endByAction m reason ref pos s).1.governor.supply (.motor m) = ⟨0, 0⟩ := by
  have moving (st : MotorState) (ne : st ≠ .running) :
      ((s.setMotor m { s.motor m with active := none }).motor m).state ≠ st := by
    rw [State.motor_setMotor_self]; exact fun e => ne (e.symm.trans run)
  rw [endByAction_some h]
  dsimp only
  rw [endNotice, State.place_governor, endActionTaken]
  rcases rests with e | e <;> rw [e]
  · exact supply_enterRest (moving .idle (by decide))
  · exact supply_enterRest (moving .braked (by decide))

/-- R28, R40, Table 2-3: an end by STALLED, SENSOR_LOST or FAULT. -/
theorem leaves_endByForce {m : MotorId} {s : State} {a : Active} {st : MotorState} (h : (s.motor m).active = some a)
    (moves : (s.motor m).state ≠ st) (reason : EndReason) (pos : Word) :
    Leaves m s
      (s.place (s.ownerLink (.motor m)) (.segmentEnd m a.seg.tag reason false pos (s.motor m).queue.length s.time))
      (endByForce m reason st pos s) [.segmentEnd m a.seg.tag reason false] (Motor.rest st (s.motor m).cleared) := by
  have self : (s.setMotor m (s.motor m).cleared).motor m = (s.motor m).cleared := State.motor_setMotor_self s m _
  rw [endByForce_some h]
  refine ⟨rfl, ?_, ((sameLinks_setMotor s m _).trans (sameLinks_enterRest m st _)).endNotice m a reason false pos _,
    ((atMotor_setMotor s m _).trans (atMotor_enterRest m st _)).trans (atMotor_place m _ _ _)⟩
  exact (State.motor_place _ _ _ m).trans ((motor_enterRest (by rwa [self])).trans (by rw [self]))

theorem supply_endByForce {m : MotorId} {s : State} {a : Active} {st : MotorState} (h : (s.motor m).active = some a)
    (moves : (s.motor m).state ≠ st) (reason : EndReason) (pos : Word) :
    (endByForce m reason st pos s).1.governor.supply (.motor m) = ⟨0, 0⟩ := by
  rw [endByForce_some h]
  dsimp only
  rw [endNotice, State.place_governor]
  exact supply_enterRest (by rw [State.motor_setMotor_self]; exact moves)

/-! ### Trips (R16, R17) -/

/-- R17: a MOTOR_FAULT notice after other work at the motor. -/
theorem Leaves.ofFaultNotice {m : MotorId} {s links u : State} {mo : Motor} (motor : u.motor m = mo)
    (same : SameLinks links u) (atMotor : AtMotor m s u) (cause : MotorFaultCause) (es : List Event) :
    Leaves m s
      (links.place (links.ownerLink (.motor m)) (.motorFault m cause mo.sampled mo.iAvg links.time))
      (faultNotice m cause u, es) es mo :=
  ⟨rfl, (State.motor_place _ _ _ m).trans motor, by rw [← motor]; exact same.faultNotice m cause,
    atMotor.trans (atMotor_place m u _ _)⟩

/-- R16: a trip's second removal of the segments and second entry to FAULT leave a motor in FAULT as it is. -/
theorem motor_tripTwice {m : MotorId} {s : State} {mo : Motor} (h : s.motor m = Motor.rest .fault mo.cleared) :
    enterRest m .fault (s.modMotor m Motor.cleared) = s.setMotor m (Motor.rest .fault mo.cleared) := by
  have same : s.modMotor m Motor.cleared = s.setMotor m (Motor.rest .fault mo.cleared) := by
    rw [State.modMotor_eq, h]; rfl
  rw [same]
  exact enterRest_of_eq (by rw [State.motor_setMotor_self]; rfl)

/-- R16, R17: a trip without a segment. -/
theorem leaves_takeTrip_none {m : MotorId} {s : State} (moves : (s.motor m).state ≠ .fault)
    (idle : (s.motor m).active = none) :
    Leaves m s
      (s.place (s.ownerLink (.motor m)) (.motorFault m .trip (s.motor m).sampled (s.motor m).iAvg s.time))
      (takeTrip m s) [] (Motor.rest .fault (s.motor m).cleared) ∧
    (takeTrip m s).1.governor.supply (.motor m) = ⟨0, 0⟩ := by
  have trip : takeTrip m s = (faultNotice m .trip (enterRest m .fault (s.modMotor m Motor.cleared)), []) := by
    unfold takeTrip endByForce; rw [idle]
  have self : (s.modMotor m Motor.cleared).motor m = (s.motor m).cleared := State.motor_modMotor_self s m _
  have free : ((s.modMotor m Motor.cleared).motor m).state ≠ .fault := by rwa [self]
  rw [trip]
  refine ⟨.ofFaultNotice ((motor_enterRest free).trans (by rw [self]))
    ((sameLinks_setMotor s m _).trans (sameLinks_enterRest m .fault _))
    ((atMotor_modMotor s m _).trans (atMotor_enterRest m .fault _)) .trip [], ?_⟩
  rw [faultNotice, State.place_governor]
  exact supply_enterRest free

/-- R16, R17, R28: a trip of a motor with a segment: SEGMENT_END, then MOTOR_FAULT. -/
theorem leaves_takeTrip_some {m : MotorId} {s : State} {a : Active} (moves : (s.motor m).state ≠ .fault)
    (act : (s.motor m).active = some a) :
    Leaves m s
      ((s.place (s.ownerLink (.motor m)) (.segmentEnd m a.seg.tag .fault false (s.motor m).sampled
        (s.motor m).queue.length s.time)).place (s.ownerLink (.motor m))
        (.motorFault m .trip (s.motor m).sampled (s.motor m).iAvg s.time))
      (takeTrip m s) [.segmentEnd m a.seg.tag .fault false] (Motor.rest .fault (s.motor m).cleared) ∧
    (takeTrip m s).1.governor.supply (.motor m) = ⟨0, 0⟩ := by
  have ended := leaves_endByForce act moves .fault (s.motor m).sampled
  have released := supply_endByForce act moves .fault (s.motor m).sampled
  have trip : takeTrip m s =
      (faultNotice m .trip ((endByForce m .fault .fault (s.motor m).sampled s).1.setMotor m
        (Motor.rest .fault (s.motor m).cleared)), [.segmentEnd m a.seg.tag .fault false]) := by
    rw [← motor_tripTwice ended.motor, ← ended.events]; rfl
  rw [trip]
  refine ⟨?_, ?_⟩
  · have notice := Leaves.ofFaultNotice
      (State.motor_setMotor_self _ m (Motor.rest .fault (s.motor m).cleared))
      (ended.links.trans (sameLinks_setMotor _ m _)) (ended.atMotor.trans (atMotor_setMotor _ m _)) .trip
      [.segmentEnd m a.seg.tag .fault false]
    rw [ownerLink_place, State.place_time] at notice
    exact notice
  · rw [faultNotice, State.place_governor]
    exact released

/-- R16, R17: a trip, with or without a segment. -/
theorem takeTrip_leaves {m : MotorId} {s : State} (moves : (s.motor m).state ≠ .fault) :
    ∃ links es, Leaves m s links (takeTrip m s) es (Motor.rest .fault (s.motor m).cleared) ∧
      (takeTrip m s).1.governor.supply (.motor m) = ⟨0, 0⟩ ∧
      ((s.motor m).active = none → es = [] ∧ links =
        s.place (s.ownerLink (.motor m)) (.motorFault m .trip (s.motor m).sampled (s.motor m).iAvg s.time)) ∧
      (∀ a, (s.motor m).active = some a → es = [.segmentEnd m a.seg.tag .fault false] ∧ links =
        (s.place (s.ownerLink (.motor m)) (.segmentEnd m a.seg.tag .fault false (s.motor m).sampled
          (s.motor m).queue.length s.time)).place (s.ownerLink (.motor m))
          (.motorFault m .trip (s.motor m).sampled (s.motor m).iAvg s.time)) := by
  by_cases idle : (s.motor m).active = none
  · obtain ⟨leaves, released⟩ := leaves_takeTrip_none moves idle
    exact ⟨_, _, leaves, released, fun _ => ⟨rfl, rfl⟩, fun a act => absurd (act.symm.trans idle) nofun⟩
  · obtain ⟨a, act⟩ := Option.ne_none_iff_exists'.mp idle
    obtain ⟨leaves, released⟩ := leaves_takeTrip_some moves act
    refine ⟨_, _, leaves, released, fun free => absurd free idle, fun b act' => ?_⟩
    obtain rfl := Option.some.inj (act.symm.trans act')
    exact ⟨rfl, rfl⟩

theorem exec_trip (m : MotorId) (s : State) :
    exec (.trip m) s = .next (if (s.motor m).driving then afterEvents (takeTrip m s) else s) := rfl

/-! ### Stalls (R35, R36) -/

theorem exec_stall (m : MotorId) (s : State) :
    exec (.stall m) s = .next (if (s.motor m).driving then afterEvents (takeStall m s) else s) := rfl

theorem Motor.not_driving {mo : Motor} (run : mo.state ≠ .running) (hold : mo.state ≠ .holding) :
    ¬ mo.driving = true := fun d => ((Motor.driving_iff mo).mp d).elim run hold

/-- R36: the stall of a RUNNING motor, from the state with the stall time 0. -/
theorem takeStall_running {m : MotorId} {s : State} {a : Active} (run : (s.motor m).state = .running)
    (act : (s.motor m).active = some a) :
    takeStall m s =
      if a.seg.condition = .stall then
        endByAction m .stallOk (.here (s.motor m).sampled) (s.motor m).sampled
          (s.setMotor m { s.motor m with stallMs := 0 })
      else
        endByForce m .stalled .braked (s.motor m).sampled (s.setMotor m { s.motor m with stallMs := 0 }) := by
  unfold takeStall
  rw [State.modMotor_eq]
  simp only [State.motor_setMotor_self, run, act]
  rfl

/-- R36: the stall of a HOLDING motor without a segment. -/
theorem takeStall_holding {m : MotorId} {s : State} (hold : (s.motor m).state = .holding)
    (idle : (s.motor m).active = none) :
    takeStall m s =
      (faultNotice m .stall (enterRest m .braked (s.setMotor m { s.motor m with stallMs := 0 })), []) := by
  unfold takeStall
  rw [State.modMotor_eq]
  simp only [State.motor_setMotor_self, hold, idle]

/-- Settles O27: the outcome of TRIP and STALL, by the state of the motor and its segment. -/
theorem tripAndStallEndMotion : Obligations.TripAndStallEndMotion := by
  unfold Obligations.TripAndStallEndMotion
  refine ⟨fun s m => ⟨fun run hold => ?_, fun driven => ?_⟩, fun s m => ⟨fun run hold => ?_, fun a run act cond => ?_,
    fun a run act cond => ?_, fun hold idle => ?_⟩⟩
  · rw [exec_trip, if_neg (Motor.not_driving run hold)]
  · have moves : (s.motor m).state ≠ .fault := by rcases driven with e | e <;> simp [e]
    obtain ⟨links, es, trip, released, idle, acts⟩ := takeTrip_leaves moves
    refine ⟨(takeTrip m s).1, es, ?_, trip.motor, released, trip.atMotor.motors, trip.atMotor.supplies, fun e => ?_,
      fun a e => ?_, trip.atMotor.quiet⟩
    · rw [exec_trip, if_pos ((Motor.driving_iff _).mpr driven), trip.reactAll]
    · obtain ⟨rfl, rfl⟩ := idle e
      exact ⟨rfl, trip.links.link⟩
    · obtain ⟨rfl, rfl⟩ := acts a e
      exact ⟨rfl, trip.links.link⟩
  · rw [exec_stall, if_neg (Motor.not_driving run hold)]
  all_goals
    have self := State.motor_setMotor_self s m { s.motor m with stallMs := 0 }
    have before := atMotor_setMotor s m { s.motor m with stallMs := 0 }
    have same := sameLinks_setMotor s m { s.motor m with stallMs := 0 }
  · have act' := (congrArg Motor.active self).trans act
    have run' := (congrArg Motor.state self).trans run
    have ended := (leaves_endByAction act' .stallOk (.here (s.motor m).sampled) (s.motor m).sampled).since before
      (same.place (s.ownerLink (.motor m))
        (.segmentEnd m a.seg.tag .stallOk false (s.motor m).sampled 0 s.time))
    refine ⟨_, ?_, ended.motor.trans ((motor_endActionTaken run' a _).trans (by rw [self])),
      fun e => supply_endByAction act' run' e _ _ _, ended.atMotor.motors, ended.links.link, ended.atMotor.quiet⟩
    rw [exec_stall, if_pos ((Motor.driving_iff _).mpr (.inl run)), takeStall_running run act, if_pos cond,
      ended.reactAll]
  · have act' := (congrArg Motor.active self).trans act
    have moves := ((congrArg Motor.state self).trans run).trans_ne (by decide : MotorState.running ≠ .braked)
    have ended := (leaves_endByForce act' moves .stalled (s.motor m).sampled).since before
      (same.place (s.ownerLink (.motor m))
        (.segmentEnd m a.seg.tag .stalled false (s.motor m).sampled _ s.time))
    refine ⟨_, ?_, ended.motor.trans ?_, supply_endByForce act' moves _ _, ended.atMotor.motors, ?_,
      ended.atMotor.quiet⟩
    · rw [exec_stall, if_pos ((Motor.driving_iff _).mpr (.inl run)), takeStall_running run act, if_neg cond,
        ended.reactAll]
    · rw [self]; exact rest_eq_resting (by decide) _
    · intro src; rw [ended.links.link, self]
  · have moves := ((congrArg Motor.state self).trans hold).trans_ne (by decide : MotorState.holding ≠ .braked)
    have entered := motor_enterRest moves
    rw [self] at entered
    have ended := Leaves.ofFaultNotice entered (same.trans (sameLinks_enterRest m .braked _))
      (before.trans (atMotor_enterRest m .braked _)) .stall []
    refine ⟨_, ?_, congrArg Motor.state ended.motor, congrArg Motor.stallMs ended.motor,
      congrArg Motor.uOut ended.motor, ?_, ended.atMotor.motors, ended.links.link, ended.atMotor.quiet⟩
    · rw [exec_stall, if_pos ((Motor.driving_iff _).mpr (.inr hold)), takeStall_holding hold idle]
      rfl
    · dsimp only
      rw [faultNotice, State.place_governor]
      exact supply_enterRest moves

end Sys2Proof.Machine

namespace Sys2Proof.Machine

open Sys2Proof.Safety

theorem Motor.not_driving_rest {st : MotorState} (run : st ≠ .running) (hold : st ≠ .holding) (mo : Motor) :
    ¬(Motor.rest st mo).driving = true :=
  Motor.not_driving run hold

/-! ### The stages of a control tick (R5, Table 1-2) -/

theorem State.setMotor_setMotor (s : State) (m : MotorId) (x y : Motor) :
    (s.setMotor m x).setMotor m y = s.setMotor m y := by
  unfold State.setMotor
  exact congrArg (fun motors => { s with motors }) (Vector.set_set x m.isLt)

/-- Stages 6, 7 and 9: law, grant and stall. -/
def finishTick (m : MotorId) (s : State) : State × List Event := stallStage m (grantStage m (lawStage m s))

/-- R5: a tick from the outcomes of its stages. -/
theorem controlTick_of_stages {m : MotorId} {isense : Int} {s s3 s4 s5 s9 : State} {e3 e4 e5 e9 : List Event}
    (trip : tripStage m (s.setMotor m ((s.motor m).adopt.measure isense)) = (s3, e3))
    (start : startStage m s3 = (s4, e4)) (profile : profileStage m s4 = (s5, e5))
    (finish : finishTick m s5 = (s9, e9)) : controlTick m isense s = (s9, e3 ++ e4 ++ e5 ++ e9) := by
  unfold finishTick at finish
  unfold controlTick
  rw [State.modMotor_eq]
  dsimp only
  rw [trip]
  dsimp only
  rw [start]
  dsimp only
  rw [profile]
  dsimp only
  rw [finish]

theorem exec_controlTick (m : MotorId) (isense : Int) (s : State) :
    exec (.controlTick m isense) s = .next (afterEvents (controlTick m isense s)) := rfl

/-- R4, R12, R43: the motor after stages 1 and 2. -/
theorem Motor.measure_adopt_eq (mo : Motor) (isense : Int) :
    mo.adopt.measure isense =
      { mo with
        config := adopted mo.config mo.pendingConfig, pendingConfig := .empty
        vmeas := max (-1000000) (min 1000000 ((Word.diff mo.position (mo.history.headD mo.position) * 125).tdiv 2))
        history := mo.history.tail ++ [mo.position], iAvg := min 8000 isense.natAbs } := by
  rw [← clampInt_eq (by decide)]
  rfl

/-- R43: the position sampled at stage 2 is the position as it stands. -/
theorem Motor.sampled_measure (mo : Motor) (isense : Int) : (mo.adopt.measure isense).sampled = mo.position :=
  List.getLastD_concat

/-- R16: the samples in a row above trip_current, this one counted. -/
def Motor.tripCount (mo : Motor) : Nat := if mo.config.tripCurrent < mo.iAvg then mo.overCount + 1 else 0

theorem tripStage_rest {m : MotorId} {s : State} (rest : ¬(s.motor m).driving = true) : tripStage m s = (s, []) :=
  if_neg rest

/-- R16: a driven motor that takes no trip counts the sample. -/
theorem tripStage_counts {m : MotorId} {s : State} (driven : (s.motor m).driving = true)
    (few : (s.motor m).tripCount < 2) :
    tripStage m s = (s.setMotor m { s.motor m with overCount := (s.motor m).tripCount }, []) :=
  (if_pos driven).trans (if_neg (Nat.not_le.mpr few))

/-- R16: a driven motor that takes a trip. -/
theorem tripStage_trips {m : MotorId} {s : State} (driven : (s.motor m).driving = true)
    (many : 2 ≤ (s.motor m).tripCount) :
    tripStage m s = takeTrip m (s.setMotor m { s.motor m with overCount := (s.motor m).tripCount }) :=
  (if_pos driven).trans (if_pos many)

/-- R23: stage 4 takes a head in IDLE, BRAKED and HOLDING alone. -/
theorem startStage_none {m : MotorId} {s : State}
    (none : (s.motor m).state = .running ∨ (s.motor m).state = .fault ∨ (s.motor m).queue = []) :
    startStage m s = (s, []) := by
  refine if_neg fun ⟨rests, full⟩ => ?_
  rcases none with e | e | e
  · simp [e] at rests
  · simp [e] at rests
  · exact full e

/-- R44: stage 5 steps a RUNNING motor alone. -/
theorem profileStage_none {m : MotorId} {s : State} (still : (s.motor m).state ≠ .running) :
    profileStage m s = (s, []) := by
  unfold profileStage
  dsimp only
  split
  next run _ => exact absurd run still
  next => rfl

/-- Stages 6, 7 and 9 leave a motor that is not driven. -/
theorem finishTick_rest {m : MotorId} {s : State} (rest : ¬(s.motor m).driving = true) : finishTick m s = (s, []) := by
  have law : lawStage m s = s := if_neg rest
  have grant : grantStage m s = s := if_neg rest
  rw [finishTick, law, grant]
  exact if_neg rest

/-- The stages after stage 4 leave a motor at rest. -/
theorem controlTick_of_start {m : MotorId} {isense : Int} {s s3 s4 : State} {e4 : List Event}
    (trip : tripStage m (s.setMotor m ((s.motor m).adopt.measure isense)) = (s3, []))
    (start : startStage m s3 = (s4, e4)) (rest : ¬(s4.motor m).driving = true) :
    controlTick m isense s = (s4, e4) := by
  have still : (s4.motor m).state ≠ .running := fun e => rest ((Motor.driving_iff _).mpr (.inl e))
  rw [controlTick_of_stages trip start (profileStage_none still) (finishTick_rest rest)]
  simp

/-! ### Stage 4: the head of the queue starts (R23, R34) -/

/-- R23, Table 2-2: the motor when its head becomes active. -/
theorem Motor.startHead_eq {mo : Motor} {seg : Segment} {rest : List Segment}
    (free : mo.state = .idle ∨ mo.state = .braked ∨ mo.state = .holding) (head : mo.queue = seg :: rest) :
    let atRest := mo.state = .idle ∨ mo.state = .braked
    let ref := if atRest then mo.sampled else mo.refPos
    mo.startHead =
      { mo with
        state := .running, queue := rest, active := some (startedAs seg ref (firstDirection seg ref)), refPos := ref
        refFrac := if atRest then 0 else mo.refFrac
        vRef := if atRest then 0 else mo.vRef
        accFrac := if atRest then 0 else mo.accFrac
        integ := if atRest then 0 else mo.integ } := by
  intro atRest ref
  unfold Motor.startHead
  rw [head]
  dsimp only
  rw [activate_start]
  unfold Motor.startReference
  rcases free with e | e | e <;> simp [e, atRest, ref]

theorem conditionGone_setMotor (s : State) (m : MotorId) (x : Motor) (seg : Segment) :
    conditionGone (s.setMotor m x) seg = conditionGone s seg := rfl

/-- R23: stage 4 with a head to start. -/
theorem startStage_head {m : MotorId} {s : State} {seg : Segment} {rest : List Segment}
    (free : (s.motor m).state = .idle ∨ (s.motor m).state = .braked ∨ (s.motor m).state = .holding)
    (head : (s.motor m).queue = seg :: rest) :
    startStage m s = endIfGone m (s.setMotor m (s.motor m).startHead) :=
  if_pos ⟨free, by simp [head]⟩

/-- R23: the head starts. -/
theorem startStage_starts {m : MotorId} {s : State} {seg : Segment} {rest : List Segment}
    (free : (s.motor m).state = .idle ∨ (s.motor m).state = .braked ∨ (s.motor m).state = .holding)
    (head : (s.motor m).queue = seg :: rest) (here : ¬Gone s seg) :
    startStage m s = (s.setMotor m (s.motor m).startHead, []) := by
  rw [startStage_head free head]
  unfold endIfGone
  rw [State.motor_setMotor_self, Motor.startHead_eq free head]
  exact if_neg (by rwa [conditionGone_setMotor, conditionGone_iff])

/-- R34: the head's condition names a channel that is UNMAPPED or LOST. -/
theorem startStage_gone {m : MotorId} {s : State} {seg : Segment} {rest : List Segment}
    (free : (s.motor m).state = .idle ∨ (s.motor m).state = .braked ∨ (s.motor m).state = .holding)
    (head : (s.motor m).queue = seg :: rest) (gone : Gone s seg) :
    Leaves m s
      (s.place (s.ownerLink (.motor m))
        (.segmentEnd m seg.tag .sensorLost false (s.motor m).sampled rest.length s.time))
      (startStage m s) [.segmentEnd m seg.tag .sensorLost false]
      (Motor.rest .braked (s.motor m).startHead.cleared) ∧
    (startStage m s).1.governor.supply (.motor m) = ⟨0, 0⟩ := by
  have self : (s.setMotor m (s.motor m).startHead).motor m = (s.motor m).startHead := State.motor_setMotor_self s m _
  have started := Motor.startHead_eq free head
  have run : (s.motor m).startHead.state = .running := by rw [started]
  have queue : (s.motor m).startHead.queue = rest := by rw [started]
  have sampled : (s.motor m).startHead.sampled = (s.motor m).sampled := by rw [started]; rfl
  obtain ⟨act, active, owns⟩ : ∃ act, (s.motor m).startHead.active = some act ∧ act.seg = seg :=
    ⟨_, by rw [started], rfl⟩
  have lost : startStage m s = endByForce m .sensorLost .braked (s.motor m).sampled
      (s.setMotor m (s.motor m).startHead) := by
    rw [startStage_head free head]
    unfold endIfGone
    rw [self, active, sampled]
    exact if_pos (by rwa [conditionGone_setMotor, owns, conditionGone_iff])
  have active' := (congrArg Motor.active self).trans active
  have moves := ((congrArg Motor.state self).trans run).trans_ne (by decide : MotorState.running ≠ .braked)
  have ended := leaves_endByForce active' moves .sensorLost (s.motor m).sampled
  rw [self, queue, owns] at ended
  rw [lost]
  exact ⟨ended.since (atMotor_setMotor s m _) ((sameLinks_setMotor s m _).place _ _),
    supply_endByForce active' moves _ _⟩

end Sys2Proof.Machine

namespace Sys2Proof.Machine

open Sys2Proof.Safety

/-! ### The reference of a profile step (R44 to R48) -/

/-- R26, R30, R49: the braking test changes the phase and the blend decision alone. -/
theorem brakingTest_changes (mo : Motor) (a : Active) :
    ∃ p d, brakingTest mo a = { a with phase := p, blend := d } := by
  unfold brakingTest
  split_ifs
  · exact ⟨_, _, rfl⟩
  · exact ⟨_, _, rfl⟩
  · exact ⟨_, _, rfl⟩
  · exact ⟨a.phase, a.blend, rfl⟩

theorem brakingTest_seg (mo : Motor) (a : Active) : (brakingTest mo a).seg = a.seg := by
  obtain ⟨_, _, e⟩ := brakingTest_changes mo a
  rw [e]

theorem brakingTest_direction (mo : Motor) (a : Active) : (brakingTest mo a).direction = a.direction := by
  obtain ⟨_, _, e⟩ := brakingTest_changes mo a
  rw [e]

/-- R45: the speed and the fraction of the rate after a profile step's speed change. -/
def Motor.changedSpeed (mo : Motor) (a : Active) : Int × Int :=
  changeSpeed mo.vRef mo.accFrac (targetSpeed (brakingTest mo a)) (brakingTest mo a).seg.accel
    (brakingTest mo a).seg.decel

/-- R47: the reference speed after a profile step. -/
def Motor.nextSpeed (mo : Motor) (a : Active) : Int := creepFloor (brakingTest mo a) (mo.changedSpeed a).1

/-- Table 3-2: a profile step by its parts. -/
theorem Motor.stepReference_eq (mo : Motor) (a : Active) :
    mo.stepReference a =
      { mo with
        vRef := mo.nextSpeed a, accFrac := (mo.changedSpeed a).2
        refPos := mo.refPos + BitVec.ofInt 32 ((mo.refFrac + mo.nextSpeed a) / 1000)
        refFrac := (mo.refFrac + mo.nextSpeed a) % 1000
        active := some (phaseAdvance (brakingTest mo a) (mo.nextSpeed a)) } := rfl

theorem moveToward_bounded {v goal dv : Int} {b : Nat} (speed : v.natAbs ≤ b) (target : goal.natAbs ≤ b) (up : 0 ≤ dv) :
    (moveToward v goal dv).natAbs ≤ b := by
  unfold moveToward
  split <;> omega

/-- R46: the fraction of the rate stays in 0 to 999. -/
theorem changeSpeed_fraction (vRef accFrac vt : Int) (accel decel : Nat) :
    0 ≤ (changeSpeed vRef accFrac vt accel decel).2 ∧ (changeSpeed vRef accFrac vt accel decel).2 < 1000 := by
  unfold changeSpeed
  split
  · exact ⟨le_rfl, by norm_num⟩
  · dsimp only
    split
    · exact ⟨le_rfl, by norm_num⟩
    · exact ⟨Int.emod_nonneg _ (by decide), Int.emod_lt_of_pos _ (by decide)⟩

theorem stepRate_nonneg (vRef vt : Int) (accel decel : Nat) : 0 ≤ stepRate vRef vt accel decel := by
  unfold stepRate
  split <;> omega

theorem stepGoal_bounded {vRef vt : Int} {b : Nat} (target : vt.natAbs ≤ b) : (stepGoal vRef vt).natAbs ≤ b := by
  unfold stepGoal
  split <;> omega

/-- R45, R46: the speed change stays within a bound on the speed and its target. -/
theorem changeSpeed_bounded {vRef accFrac vt : Int} {b : Nat} (speed : vRef.natAbs ≤ b) (target : vt.natAbs ≤ b)
    (frac : 0 ≤ accFrac) (accel decel : Nat) : (changeSpeed vRef accFrac vt accel decel).1.natAbs ≤ b := by
  have rate := stepRate_nonneg vRef vt accel decel
  have moved := moveToward_bounded (dv := (accFrac + stepRate vRef vt accel decel) / 1000) speed
    (stepGoal_bounded (vRef := vRef) target) (by omega)
  unfold changeSpeed
  split
  · exact speed
  · dsimp only
    split
    · exact target
    · exact moved

/-- Table 3-3: the target speed is no faster than the segment's speed. -/
theorem targetSpeed_bounded (a : Active) : (targetSpeed a).natAbs ≤ a.seg.speed.natAbs := by
  have travel : (if a.phase = .decel then 0
      else (a.seg.speed.natAbs : Int) * ((a.direction.map dirSign).getD 0)).natAbs ≤ a.seg.speed.natAbs := by
    split
    · exact Nat.zero_le _
    · cases a.direction with
      | none => simp
      | some d => cases d <;> simp only [Option.map, Option.getD, dirSign] <;> omega
  unfold targetSpeed
  cases a.seg.kind with
  | speed => dsimp only; split <;> simp
  | move => exact travel
  | goto => exact travel
  | hold => exact Nat.zero_le _

theorem creepFloor_bounded {v : Int} {b : Nat} (a : Active) (speed : v.natAbs ≤ b) (room : 10 ≤ b) :
    (creepFloor a v).natAbs ≤ b := by
  unfold creepFloor
  split
  next d _ =>
    split
    · cases d <;> exact room
    · exact speed
  next => exact speed

/-- R46, R48: the bounds that a profile step keeps. -/
theorem stepReference_bounds (mo : Motor) (a : Active) :
    let n := mo.stepReference a
    0 ≤ n.refFrac ∧ n.refFrac < 1000 ∧ 0 ≤ n.accFrac ∧ n.accFrac < 1000 ∧
    (mo.vRef.natAbs ≤ 4000 → a.seg.speed.natAbs ≤ 4000 → 0 ≤ mo.accFrac → n.vRef.natAbs ≤ 4000) ∧
    ∃ k : Int, n.refPos = mo.refPos + BitVec.ofInt 32 k ∧ 1000 * k + n.refFrac = mo.refFrac + n.vRef := by
  intro n
  obtain ⟨low, high⟩ := changeSpeed_fraction mo.vRef mo.accFrac (targetSpeed (brakingTest mo a))
    (brakingTest mo a).seg.accel (brakingTest mo a).seg.decel
  rw [show n = _ from mo.stepReference_eq a]
  refine ⟨Int.emod_nonneg _ (by decide), Int.emod_lt_of_pos _ (by decide), low, high, fun speed target frac => ?_,
    _, rfl, Int.mul_ediv_add_emod _ 1000⟩
  have slow : (targetSpeed (brakingTest mo a)).natAbs ≤ 4000 :=
    (targetSpeed_bounded _).trans (by rwa [brakingTest_seg])
  exact creepFloor_bounded _ (changeSpeed_bounded speed slow frac _ _) (by decide)

/-! ### Ticks at rest and starts -/

theorem controlTick_rest {m : MotorId} {s : State} (isense : Int)
    (rest : (s.motor m).state = .idle ∨ (s.motor m).state = .braked ∨ (s.motor m).state = .fault)
    (empty : (s.motor m).queue = []) :
    controlTick m isense s = (s.setMotor m ((s.motor m).adopt.measure isense), []) := by
  have self := State.motor_setMotor_self s m ((s.motor m).adopt.measure isense)
  have undriven : ¬((s.setMotor m ((s.motor m).adopt.measure isense)).motor m).driving = true := by
    rw [self, Motor.driving_iff]
    rintro (e | e) <;> rcases rest with r | r | r <;> exact absurd (e.symm.trans r) (by decide)
  exact controlTick_of_start (tripStage_rest undriven)
    (startStage_none (.inr (.inr ((congrArg Motor.queue self).trans empty)))) undriven

theorem adopted_empty (c : MotorConfig) : adopted c PendingConfig.empty = c := rfl

/-- R16: stage 3 without a trip changes the count of the samples alone. -/
theorem tripStage_measured {m : MotorId} {s : State} {isense : Int}
    (few : (s.motor m).driving = true → ((s.motor m).adopt.measure isense).tripCount < 2) :
    ∃ count, tripStage m (s.setMotor m ((s.motor m).adopt.measure isense)) =
      (s.setMotor m { (s.motor m).adopt.measure isense with overCount := count }, []) := by
  have self := State.motor_setMotor_self s m ((s.motor m).adopt.measure isense)
  by_cases driven : (s.motor m).driving = true
  · refine ⟨((s.motor m).adopt.measure isense).tripCount, ?_⟩
    rw [tripStage_counts (by rw [self]; exact driven) (by rw [self]; exact few driven), self,
      State.setMotor_setMotor]
  · refine ⟨(s.motor m).overCount, ?_⟩
    rw [tripStage_rest (by rw [self]; exact driven)]
    rfl

/-- R23, R34: the motor once its head has ended at its start. -/
theorem rest_startHead {mo : Motor} {seg : Segment} {rest : List Segment}
    (free : mo.state = .idle ∨ mo.state = .braked ∨ mo.state = .holding) (head : mo.queue = seg :: rest)
    (isense : Int) (count : Nat) :
    let atRest := mo.state = .idle ∨ mo.state = .braked
    Motor.rest .braked (Motor.startHead { mo.adopt.measure isense with overCount := count }).cleared =
      resting .braked
        { mo with
          config := adopted mo.config mo.pendingConfig, pendingConfig := .empty
          vmeas := max (-1000000) (min 1000000
            ((Word.diff mo.position (mo.history.headD mo.position) * 125).tdiv 2))
          history := mo.history.tail ++ [mo.position], iAvg := min 8000 isense.natAbs, active := none, queue := []
          refPos := if atRest then mo.position else mo.refPos
          refFrac := if atRest then 0 else mo.refFrac
          vRef := if atRest then 0 else mo.vRef
          accFrac := if atRest then 0 else mo.accFrac
          integ := if atRest then 0 else mo.integ } := by
  intro atRest
  have sampled : Motor.sampled { mo.adopt.measure isense with overCount := count } = mo.position :=
    mo.sampled_measure isense
  have started := Motor.startHead_eq (mo := { mo.adopt.measure isense with overCount := count }) free head
  dsimp only at started
  rw [started, sampled, Motor.measure_adopt_eq, rest_eq_resting (by decide)]
  rfl

/-- R34: the tick that starts a head whose condition names a channel that is UNMAPPED or LOST. -/
theorem controlTick_gone {m : MotorId} {s : State} {isense : Int} {seg : Segment} {rest : List Segment}
    (few : (s.motor m).driving = true → ((s.motor m).adopt.measure isense).tripCount < 2)
    (free : (s.motor m).state = .idle ∨ (s.motor m).state = .braked ∨ (s.motor m).state = .holding)
    (head : (s.motor m).queue = seg :: rest) (gone : Gone s seg) :
    ∃ count, Leaves m s
        (s.place (s.ownerLink (.motor m))
          (.segmentEnd m seg.tag .sensorLost false (s.motor m).position rest.length s.time))
        (controlTick m isense s) [.segmentEnd m seg.tag .sensorLost false]
        (Motor.rest .braked
          (Motor.startHead { (s.motor m).adopt.measure isense with overCount := count }).cleared) ∧
      (controlTick m isense s).1.governor.supply (.motor m) = ⟨0, 0⟩ := by
  obtain ⟨count, trip⟩ := tripStage_measured few
  refine ⟨count, ?_⟩
  have self := State.motor_setMotor_self s m { (s.motor m).adopt.measure isense with overCount := count }
  obtain ⟨ended, released⟩ := startStage_gone
    (s := s.setMotor m { (s.motor m).adopt.measure isense with overCount := count })
    (by rw [self]; exact free) (by rw [self]; exact head) gone
  have rests : ¬((startStage m
      (s.setMotor m { (s.motor m).adopt.measure isense with overCount := count })).1.motor m).driving = true := by
    rw [ended.motor]; exact Motor.not_driving_rest (by decide) (by decide) _
  rw [controlTick_of_start trip rfl rests]
  rw [self, show Motor.sampled { (s.motor m).adopt.measure isense with overCount := count } = _ from
    (s.motor m).sampled_measure isense] at ended
  exact ⟨ended.since (atMotor_setMotor s m _) ((sameLinks_setMotor s m _).place _ _), released⟩

/-- Settles O20: ticks without a running segment stage by stage, and the bounds that a profile step keeps. -/
theorem tickAtRestMeasures : Obligations.TickAtRestMeasures := by
  unfold Obligations.TickAtRestMeasures
  refine ⟨fun s m isense rest empty => ?_, fun c p => ⟨rfl, adopted_empty c⟩, fun s m seg rest free head here => ?_,
    fun s m isense seg rest free head gone => ?_, stepReference_bounds⟩
  · rw [exec_controlTick, controlTick_rest isense rest empty, Motor.measure_adopt_eq]
    rfl
  · have free := or_assoc.mp free
    rw [startStage_starts free head here, Motor.startHead_eq free head]
  · have few (driven : (s.motor m).driving = true) : ((s.motor m).adopt.measure isense).tripCount < 2 := by
      rcases free with (e | e) | ⟨_, few⟩
      · exact absurd driven (by simp [Motor.driving, e])
      · exact absurd driven (by simp [Motor.driving, e])
      · exact few
    have free : (s.motor m).state = .idle ∨ (s.motor m).state = .braked ∨ (s.motor m).state = .holding := by
      rcases free with (e | e) | ⟨e, _⟩ <;> simp [e]
    obtain ⟨count, ended, released⟩ := controlTick_gone few free head gone
    refine ⟨_, ?_, ended.motor.trans (rest_startHead free head isense count), released, ended.atMotor.supplies,
      ended.atMotor.motors, ended.links.link, ended.atMotor.quiet⟩
    rw [exec_controlTick, ended.reactAll]

end Sys2Proof.Machine

namespace Sys2Proof.Machine

open Sys2Proof.Safety

/-! ### A profile step part by part (Table 3-2) -/

/-- R23: the sign of a segment's direction. -/
def wayOf (d : Option Direction) : Int :=
  match d with
  | some .forward => 1
  | some .backward => -1
  | none => 0

theorem map_dirSign_getD (d : Option Direction) : (d.map dirSign).getD 0 = wayOf d := by
  rcases d with _ | _ | _ <;> rfl

theorem dirSign_eq_wayOf (d : Direction) : dirSign d = wayOf (some d) := by
  cases d <;> rfl

theorem isTravel_iff (k : SegKind) : isTravel k = true ↔ k = .move ∨ k = .goto := by
  cases k <;> decide

/-- R49: the distance left to the target, in the direction of travel. -/
def leftTo (target : Option Word) (ref : Word) (way : Int) : Int :=
  match target with
  | some t => Word.diff t ref * way
  | none => 0

theorem remaining_eq (ref : Word) (a : Active) : remaining ref a = leftTo a.target ref (wayOf a.direction) := by
  unfold remaining leftTo
  cases a.target with
  | none => rfl
  | some t =>
    cases a.direction with
    | none => exact (mul_zero _).symm
    | some d => dsimp only; rw [dirSign_eq_wayOf]

/-- R30: how far the head of the queue goes from the reference, with its sign. -/
def headWay (queue : List Segment) (ref : Word) : Int :=
  match queue with
  | [] => 0
  | h :: _ =>
    match h.kind with
    | .speed => h.speed
    | .move => h.target.getD 0
    | .goto => Word.diff (BitVec.ofInt 32 (h.target.getD 0)) ref
    | .hold => 0

theorem headWay_cons (h : Segment) (rest : List Segment) (ref : Word) : headWay (h :: rest) ref = wayFrom h ref := by
  unfold headWay wayFrom
  dsimp only
  cases h.kind <;> rfl

/-- R30: the head goes the way of the active segment when its way and the direction have the same sign. -/
theorem blendTest_headWay (mo : Motor) (a : Active) :
    blendTest mo a = true ↔ 0 < headWay mo.queue mo.refPos * wayOf a.direction := by
  rw [blendTest_iff]
  unfold HeadFollows
  cases mo.queue with
  | nil => simp [headWay]
  | cons h rest =>
    rw [headWay_cons]
    rcases a.direction with _ | _ | _ <;> simp [wayOf]

/-- R49: the braking test takes the segment. -/
abbrev Brakes (mo : Motor) (a : Active) : Prop :=
  (a.seg.kind = .move ∨ a.seg.kind = .goto) ∧ (a.phase = .accel ∨ a.phase = .cruise) ∧
    leftTo a.target mo.refPos (wayOf a.direction) ≤ (mo.vRef * mo.vRef).tdiv (2 * a.seg.decel)

/-- R26, R30, R49: the braking test, by the end action and the way of the head. -/
theorem brakingTest_eq (mo : Motor) (a : Active) :
    brakingTest mo a =
      if Brakes mo a then
        if a.seg.endAction ≠ .blend then { a with phase := .decel }
        else if 0 < headWay mo.queue mo.refPos * wayOf a.direction then { a with phase := .through, blend := .blend }
        else { a with phase := .decel, blend := .noBlend }
      else a := by
  have brakes : (isTravel a.seg.kind ∧ (a.phase = .accel ∨ a.phase = .cruise) ∧
      remaining mo.refPos a ≤ brakingDistance mo.vRef a.seg.decel) ↔ Brakes mo a := by
    rw [isTravel_iff, remaining_eq]; rfl
  unfold brakingTest
  simp only [brakes, blendTest_headWay]
  by_cases h : a.seg.endAction = .blend <;> simp [h]

/-- Table 3-3. -/
theorem targetSpeed_eq (a : Active) :
    targetSpeed a =
      match a.seg.kind with
      | .hold => 0
      | .speed => if a.phase = .stopping then 0 else a.seg.speed
      | _ => if a.phase = .decel then 0 else a.seg.speed.natAbs * wayOf a.direction := by
  unfold targetSpeed
  rw [map_dirSign_getD]
  cases a.seg.kind <;> rfl

/-- R45: numbers of the same sign have a product above 0. -/
theorem signOf_eq_iff {v w : Int} (moving : v ≠ 0) : signOf v = signOf w ↔ 0 < v * w := by
  rw [mul_pos_iff]
  unfold signOf
  constructor
  · intro same
    split_ifs at same <;> omega
  · rintro (⟨hv, hw⟩ | ⟨hv, hw⟩)
    · rw [if_pos hv, if_pos hw]
    · rw [if_neg hv.le.not_gt, if_pos hv, if_neg hw.le.not_gt, if_pos hw]

/-- R45: the rate of a step. -/
theorem stepRate_eq (vRef vt : Int) (accel decel : Nat) :
    stepRate vRef vt accel decel =
      ((if vRef = 0 ∨ (0 < vRef * vt ∧ vRef.natAbs < vt.natAbs) then accel else decel : Nat) : Int) := by
  unfold stepRate
  by_cases still : vRef = 0
  · simp [still]
  · simp only [signOf_eq_iff still, Nat.cast_ite]

/-- R45, R46: the speed after a step's change, before the creep floor. -/
def speedAfter (vRef vt sum : Int) : Int :=
  let goal := if vRef * vt < 0 then 0 else vt
  let moved := if vRef < goal then min goal (vRef + sum / 1000) else max goal (vRef - sum / 1000)
  if vRef = vt then vt else moved

theorem changeSpeed_eq (vRef accFrac vt : Int) (accel decel : Nat) :
    changeSpeed vRef accFrac vt accel decel =
      (speedAfter vRef vt (accFrac + stepRate vRef vt accel decel),
        if speedAfter vRef vt (accFrac + stepRate vRef vt accel decel) = vt then 0
        else (accFrac + stepRate vRef vt accel decel) % 1000) := by
  unfold changeSpeed speedAfter
  by_cases same : vRef = vt
  · simp [same]
  · simp only [if_neg same]
    generalize accFrac + stepRate vRef vt accel decel = sum
    by_cases reached : moveToward vRef (stepGoal vRef vt) (sum / 1000) = vt
    · rw [if_pos reached]
      have goes := reached
      unfold moveToward stepGoal at goes
      rw [goes, if_pos rfl]
    · rw [if_neg reached]
      exact Prod.ext rfl (if_neg reached).symm

/-- R47: the creep floor. -/
theorem creepFloor_eq (a : Active) (v : Int) :
    creepFloor a v =
      if (a.seg.kind = .move ∨ a.seg.kind = .goto) ∧ wayOf a.direction ≠ 0 ∧ a.phase = .decel ∧
        v * wayOf a.direction < 10 then 10 * wayOf a.direction else v := by
  unfold creepFloor
  rcases a.direction with _ | d
  · simp [wayOf]
  · have nonzero : wayOf (some d) ≠ 0 := by cases d <;> decide
    simp only [dirSign_eq_wayOf, isTravel_iff, nonzero, ne_eq, not_false_eq_true, true_and]

/-! ### The parts of a step after the braking test -/

theorem targetSpeed_brakingTest (mo : Motor) (a : Active) :
    targetSpeed (brakingTest mo a) =
      match a.seg.kind with
      | .hold => 0
      | .speed => if (brakingTest mo a).phase = .stopping then 0 else a.seg.speed
      | _ => if (brakingTest mo a).phase = .decel then 0 else a.seg.speed.natAbs * wayOf a.direction := by
  rw [targetSpeed_eq, brakingTest_seg, brakingTest_direction]

theorem changedSpeed_eq (mo : Motor) (a : Active) :
    mo.changedSpeed a =
      changeSpeed mo.vRef mo.accFrac (targetSpeed (brakingTest mo a)) a.seg.accel a.seg.decel := by
  unfold Motor.changedSpeed
  rw [brakingTest_seg]

theorem creepFloor_brakingTest (mo : Motor) (a : Active) (v : Int) :
    creepFloor (brakingTest mo a) v =
      if (a.seg.kind = .move ∨ a.seg.kind = .goto) ∧ wayOf a.direction ≠ 0 ∧ (brakingTest mo a).phase = .decel ∧
        v * wayOf a.direction < 10 then 10 * wayOf a.direction else v := by
  rw [creepFloor_eq, brakingTest_seg, brakingTest_direction]

theorem phaseAdvance_brakingTest (mo : Motor) (a : Active) (v : Int) :
    phaseAdvance (brakingTest mo a) v =
      if a.seg.kind ≠ .hold ∧ (brakingTest mo a).phase = .accel ∧ v = targetSpeed (brakingTest mo a) then
        { brakingTest mo a with phase := .cruise }
      else brakingTest mo a := by
  unfold phaseAdvance
  exact if_congr (by rw [brakingTest_seg]) rfl rfl

end Sys2Proof.Machine

namespace Sys2Proof.Machine

open Sys2Proof.Safety

/-! ### Stages 6 to 9 of a driven motor (R35, R52 to R56, R61) -/

theorem State.setMotor_motor (s : State) (m : MotorId) : s.setMotor m (s.motor m) = s := by
  unfold State.setMotor State.motor
  exact congrArg (fun motors => { s with motors }) (Vector.set_getElem_self m.isLt)

/-- R55: the ask of a tick. -/
def Motor.lawAsk (mo : Motor) : Nat := motorAsk mo.law.uLim mo.config.stallCurrent

/-- R52 to R56: the motor after its law, its grant and its output. -/
def Motor.granted (mo : Motor) (g : Governor) (m : MotorId) : Motor :=
  mo.law.takeGrant (g.offer (.motor m) mo.lawAsk)

theorem grant_askSupply (s : State) (r : Resource) (a : Nat) : (s.askSupply r a).grant r = s.governor.offer r a :=
  congrArg Supply.grant (Governor.supply_setSupply_self s.governor r ⟨s.governor.offer r a, a⟩)

/-- R52 to R56, R61: law, ask and grant of a driven motor. -/
theorem grantStage_lawStage {m : MotorId} {s : State} (driven : (s.motor m).driving = true) :
    grantStage m (lawStage m s) =
      (s.askSupply (.motor m) (s.motor m).lawAsk).setMotor m
        ((s.motor m).granted s.governor m) := by
  have law : lawStage m s = s.setMotor m (s.motor m).law := if_pos driven
  have self := State.motor_setMotor_self s m (s.motor m).law
  unfold grantStage
  rw [law, self]
  refine (if_pos driven).trans ?_
  dsimp only
  rw [grant_askSupply]
  exact State.setMotor_setMotor (s.askSupply (.motor m) (s.motor m).lawAsk) m _ _

/-- R35: the stall time once the stall condition has been looked at. -/
def Motor.nextStallMs (mo : Motor) : Nat :=
  if stallCondition mo.config mo.uOut mo.vmeas then mo.stallMs + 1 else 0

/-- R35: the tick takes a stall. -/
abbrev Motor.Stalls (mo : Motor) : Prop :=
  stallCondition mo.config mo.uOut mo.vmeas = true ∧ mo.config.stallTime ≤ mo.stallMs + 1

theorem stallStage_counts {m : MotorId} {s : State} (driven : (s.motor m).driving = true)
    (turns : ¬(s.motor m).Stalls) :
    stallStage m s = (s.setMotor m { s.motor m with stallMs := (s.motor m).nextStallMs }, []) := by
  unfold stallStage Motor.nextStallMs
  refine (if_pos driven).trans ?_
  by_cases stalled : stallCondition (s.motor m).config (s.motor m).uOut (s.motor m).vmeas = true
  · rw [if_pos stalled, if_pos stalled]
    exact if_neg fun late => turns ⟨stalled, late⟩
  · rw [if_neg stalled, if_neg stalled]
    rfl

/-- R35, R52 to R56, R61: stages 6 to 9 of a driven motor that takes no stall. -/
theorem finishTick_drives {m : MotorId} {s : State} (driven : (s.motor m).driving = true)
    (turns : ¬((s.motor m).granted s.governor m).Stalls) :
    finishTick m s =
      ((s.askSupply (.motor m) (s.motor m).lawAsk).setMotor m
        { (s.motor m).granted s.governor m with stallMs := ((s.motor m).granted s.governor m).nextStallMs }, []) := by
  have self := State.motor_setMotor_self (s.askSupply (.motor m) (s.motor m).lawAsk) m
    ((s.motor m).granted s.governor m)
  unfold finishTick
  rw [grantStage_lawStage driven]
  refine (stallStage_counts (by rw [self]; exact driven) (by rw [self]; exact turns)).trans ?_
  rw [self, State.setMotor_setMotor]

/-- The motion of a motor: its state, its segments and its reference. -/
structure SameMotion (mo x : Motor) : Prop where
  state : x.state = mo.state
  active : x.active = mo.active
  queue : x.queue = mo.queue
  refPos : x.refPos = mo.refPos
  refFrac : x.refFrac = mo.refFrac
  vRef : x.vRef = mo.vRef
  accFrac : x.accFrac = mo.accFrac

/-- Stages 6 to 9 change the law and the output of the motor alone, while its stall time is not over. -/
theorem finishTick_keeps {m : MotorId} {s : State} (early : (s.motor m).stallMs + 1 < (s.motor m).config.stallTime) :
    ∃ t, finishTick m s = (t, []) ∧ AtMotor m s t ∧ SameLinks s t ∧ SameMotion (s.motor m) (t.motor m) := by
  by_cases driven : (s.motor m).driving = true
  · refine ⟨_, finishTick_drives driven fun ⟨_, late⟩ => Nat.not_le.mpr early late,
      (atMotor_askSupply s m _).trans (atMotor_setMotor _ m _), ⟨rfl, rfl, rfl, rfl, rfl⟩, ?_⟩
    rw [State.motor_setMotor_self]
    exact ⟨rfl, rfl, rfl, rfl, rfl, rfl, rfl⟩
  · exact ⟨s, finishTick_rest driven, .refl m s, .refl s, ⟨rfl, rfl, rfl, rfl, rfl, rfl, rfl⟩⟩

/-! ### The tick of a RUNNING motor -/

/-- R12, R16, R43: the motor after stages 1 to 3 of a driven motor that takes no trip. -/
def Motor.ticked (mo : Motor) (isense : Int) : Motor :=
  { mo.adopt.measure isense with overCount := (mo.adopt.measure isense).tripCount }

theorem Motor.ticked_eq (mo : Motor) (isense : Int) :
    mo.ticked isense =
      { mo with
        config := adopted mo.config mo.pendingConfig, pendingConfig := .empty
        vmeas := max (-1000000) (min 1000000 ((Word.diff mo.position (mo.history.headD mo.position) * 125).tdiv 2))
        history := mo.history.tail ++ [mo.position], iAvg := min 8000 isense.natAbs
        overCount := if (adopted mo.config mo.pendingConfig).tripCurrent < min 8000 isense.natAbs
          then mo.overCount + 1 else 0 } := by
  unfold Motor.ticked Motor.tripCount
  rw [Motor.measure_adopt_eq]

/-- R26, R27, R32, R50: parts 6 to 8 of a profile step. -/
def stepTests (m : MotorId) (b : Active) (s : State) : State × List Event :=
  if isTravel b.seg.kind then arrivalTest m b s else durationTest m b s

theorem stepTests_travel {b : Active} (travel : b.seg.kind = .move ∨ b.seg.kind = .goto) (m : MotorId) (s : State) :
    stepTests m b s = arrivalTest m b s := if_pos ((isTravel_iff _).mpr travel)

theorem stepTests_stays {b : Active} (stays : ¬(b.seg.kind = .move ∨ b.seg.kind = .goto)) (m : MotorId) (s : State) :
    stepTests m b s = durationTest m b s := if_neg (mt (isTravel_iff _).mp stays)

/-- R44: stage 5 of a RUNNING motor. -/
theorem profileStage_running {m : MotorId} {s : State} {a b : Active} (run : (s.motor m).state = .running)
    (act : (s.motor m).active = some a) (stepped : ((s.motor m).stepReference a).active = some b) :
    profileStage m s = stepTests m b (s.setMotor m ((s.motor m).stepReference a)) := by
  unfold profileStage
  simp only [run, act, State.motor_setMotor_self, stepped]
  rfl

/-- R5: the tick of a RUNNING motor that takes no trip, from its profile step's outcome. -/
theorem controlTick_running {m : MotorId} {isense : Int} {s s5 s9 : State} {a b : Active} {e5 e9 : List Event}
    (run : (s.motor m).state = .running) (act : (s.motor m).active = some a)
    (few : ((s.motor m).adopt.measure isense).tripCount < 2)
    (stepped : (((s.motor m).ticked isense).stepReference a).active = some b)
    (profile : stepTests m b (s.setMotor m (((s.motor m).ticked isense).stepReference a)) = (s5, e5))
    (finish : finishTick m s5 = (s9, e9)) : controlTick m isense s = (s9, e5 ++ e9) := by
  have self := State.motor_setMotor_self s m ((s.motor m).adopt.measure isense)
  have self' := State.motor_setMotor_self s m ((s.motor m).ticked isense)
  have trip : tripStage m (s.setMotor m ((s.motor m).adopt.measure isense)) =
      (s.setMotor m ((s.motor m).ticked isense), []) := by
    rw [tripStage_counts (by rw [self]; exact (Motor.driving_iff _).mpr (.inl run)) (by rwa [self]), self,
      State.setMotor_setMotor]
    rfl
  have start := startStage_none (m := m) (s := s.setMotor m ((s.motor m).ticked isense))
    (.inl ((congrArg Motor.state self').trans run))
  have step : profileStage m (s.setMotor m ((s.motor m).ticked isense)) = (s5, e5) := by
    rw [profileStage_running ((congrArg Motor.state self').trans run) ((congrArg Motor.active self').trans act)
      (by rw [self']; exact stepped), self', State.setMotor_setMotor, profile]
  exact controlTick_of_stages trip start step finish

/-- R50: a MOVE or GOTO that has not arrived. -/
theorem arrivalTest_goes {m : MotorId} {s : State} {a : Active}
    (far : 0 < remaining (s.motor m).refPos a ∨ (a.phase ≠ .decel ∧ a.phase ≠ .through)) :
    arrivalTest m a s = (s, []) := by
  unfold arrivalTest
  dsimp only
  split
  next near =>
    obtain ⟨decel, through⟩ := far.resolve_left (Int.not_lt.mpr near)
    cases p : a.phase
    · rfl
    · rfl
    · exact absurd p decel
    · exact absurd p through
    · rfl
  next => rfl

/-- R27, R32: a SPEED or HOLD segment whose duration is not over, and which does not stop. -/
theorem durationTest_goes {m : MotorId} {s : State} {a : Active} (kind : ¬(a.seg.kind = .move ∨ a.seg.kind = .goto))
    (act : (s.motor m).active = some a)
    (goes : if a.seg.duration.isSome ∧ a.phase ≠ .stopping then a.elapsed + 1 < a.seg.duration.getD 0
      else ¬(a.seg.kind = .speed ∧ a.phase = .stopping ∧ (s.motor m).vRef = 0)) :
    durationTest m a s =
      (s.setMotor m
        { s.motor m with
          active := some
            { a with
              elapsed := if a.seg.duration.isSome ∧ a.phase ≠ .stopping then a.elapsed + 1 else a.elapsed } }, []) := by
  have runs : durationRuns a = true ↔ a.seg.duration.isSome ∧ a.phase ≠ .stopping := by
    unfold durationRuns
    cases k : a.seg.kind <;> simp_all
  unfold durationTest
  by_cases r : a.seg.duration.isSome ∧ a.phase ≠ .stopping
  · rw [if_pos r] at goes
    rw [if_pos (runs.mpr r), if_pos r]
    exact if_neg (Nat.not_le.mpr goes)
  · rw [if_neg r] at goes
    rw [if_neg (mt runs.mp r), if_neg r]
    have same : s.setMotor m { s.motor m with active := some a } = s := by
      rw [← act]; exact State.setMotor_motor s m
    unfold stoppingTest
    dsimp only
    rw [act]
    exact (if_neg goes).trans (Prod.ext same.symm rfl)

end Sys2Proof.Machine

namespace Sys2Proof.Machine

open Sys2Proof.Safety

/-! ### The law and the output in numbers (R52 to R56) -/

theorem signOf_eq_sign (x : Int) : signOf x = x.sign := by
  unfold signOf
  rcases lt_trichotomy x 0 with neg | rfl | pos
  · rw [if_neg neg.not_gt, if_pos neg, Int.sign_eq_neg_one_of_neg neg]
  · rfl
  · rw [if_pos pos, Int.sign_eq_one_of_pos pos]

theorem Motor.posError_eq (mo : Motor) :
    mo.posError = max (-4096) (min 4096 (Word.diff mo.refPos mo.sampled)) := clampInt_eq (by decide) _

theorem Motor.speedError_eq (mo : Motor) : mo.speedError = max (-8000) (min 8000 (mo.vRef - mo.vmeas)) :=
  clampInt_eq (by decide) _

theorem Motor.nextInteg_eq (mo : Motor) :
    mo.nextInteg =
      if (mo.limited = .positive ∧ 0 < mo.speedError) ∨ (mo.limited = .negative ∧ mo.speedError < 0) then mo.integ
      else max (-2000000) (min 2000000 (mo.integ + mo.speedError)) := by
  unfold Motor.nextInteg
  rw [clampInt_eq (by decide)]

theorem Motor.uLim_law (mo : Motor) :
    mo.law.uLim = max (-(mo.config.dutyLimit : Int)) (min mo.config.dutyLimit mo.lawValue) :=
  clampInt_eq (by omega) _

/-- R55, R57: the output for a grant no greater than its ask. -/
theorem grantedDuty_eq {grant stallCurrent : Nat} {uLim : Int} (within : grant ≤ motorAsk uLim stallCurrent) :
    grantedDuty grant stallCurrent uLim =
      if grant = motorAsk uLim stallCurrent then uLim
      else uLim.sign * ((grant * 1000 / stallCurrent : Nat) : Int) := by
  unfold grantedDuty paidDuty
  rw [signOf_eq_sign]
  exact if_congr (by omega) rfl rfl

theorem Motor.uOut_granted (mo : Motor) (g : Governor) (m : MotorId) :
    (mo.granted g m).uOut =
      if g.offer (.motor m) mo.lawAsk = mo.lawAsk then mo.law.uLim
      else mo.law.uLim.sign * ((g.offer (.motor m) mo.lawAsk * 1000 / mo.config.stallCurrent : Nat) : Int) :=
  grantedDuty_eq (Nat.min_le_left _ _)

/-- R52 to R56: law, ask, grant and output of a tick, in numbers. -/
theorem Motor.granted_eq (mo : Motor) (g : Governor) (m : MotorId) :
    let c := mo.config
    let eP := max (-4096) (min 4096 (Word.diff mo.refPos mo.sampled))
    let eV := max (-8000) (min 8000 (mo.vRef - mo.vmeas))
    let integ :=
      if (mo.limited = .positive ∧ 0 < eV) ∨ (mo.limited = .negative ∧ eV < 0) then mo.integ
      else max (-2000000) (min 2000000 (mo.integ + eV))
    let u := (c.kp * eP + c.kv * eV + c.ki * integ.tdiv 64 + c.kf * mo.vRef : Int).tdiv 1024
    let uLim := max (-(c.dutyLimit : Int)) (min c.dutyLimit u)
    let ask := uLim.natAbs * c.stallCurrent / 1000
    let grant := g.offer (.motor m) ask
    let uOut := if grant = ask then uLim else uLim.sign * ((grant * 1000 / c.stallCurrent : Nat) : Int)
    mo.lawAsk = ask ∧
      mo.granted g m =
        { mo with
          integ := integ, u := u, uLim := uLim, uOut := uOut, starved := decide (grant < ask)
          limited := if uOut = u then .clear else if 0 < u then .positive else .negative } := by
  intro c eP eV integ u uLim ask grant uOut
  have hInteg : mo.nextInteg = integ := by rw [Motor.nextInteg_eq, Motor.speedError_eq]
  have hU : mo.lawValue = u := by
    unfold Motor.lawValue
    rw [Motor.posError_eq, Motor.speedError_eq, hInteg]
    rfl
  have hLim : mo.law.uLim = uLim := by rw [Motor.uLim_law, hU]
  have hAsk : mo.lawAsk = ask := by
    unfold Motor.lawAsk motorAsk
    rw [hLim]
  have hOut : (mo.granted g m).uOut = uOut := by
    rw [Motor.uOut_granted, hAsk, hLim]
  refine ⟨hAsk, ?_⟩
  rw [← hOut, ← hU, ← hInteg, ← hLim, show grant = g.offer (.motor m) mo.lawAsk by rw [hAsk], ← hAsk]
  rfl

theorem stallCondition_iff (c : MotorConfig) (uOut vmeas : Int) :
    stallCondition c uOut vmeas = true ↔
      0 < c.dutyLimit ∧ 9 * c.dutyLimit ≤ 10 * uOut.natAbs ∧ vmeas.natAbs < c.stallSpeed := by
  simp only [stallCondition, Bool.and_eq_true, decide_eq_true_eq, and_assoc]

/-! ### Arrivals (R50, R31) -/

theorem remaining_signed (ref : Word) (a : Active) :
    remaining ref a =
      match a.target, a.direction with
      | some t, some .forward => Word.diff t ref
      | some t, some .backward => -Word.diff t ref
      | _, _ => 0 := by
  unfold remaining
  rcases a.target with _ | t
  · rfl
  · rcases a.direction with _ | _ | _
    · rfl
    · exact mul_one _
    · exact mul_neg_one _

theorem arrivalTest_decel {m : MotorId} {s : State} {a : Active} (near : remaining (s.motor m).refPos a ≤ 0)
    (phase : a.phase = .decel) :
    arrivalTest m a s =
      endByAction m .done .arrived (s.motor m).sampled
        (s.setMotor m
          { s.motor m with
            refPos := a.target.getD (s.motor m).refPos, refFrac := 0, vRef := 0, accFrac := 0 }) := by
  unfold arrivalTest
  refine (if_pos near).trans ?_
  rw [phase]
  rfl

theorem arrivalTest_through {m : MotorId} {s : State} {a : Active} (near : remaining (s.motor m).refPos a ≤ 0)
    (phase : a.phase = .through) :
    arrivalTest m a s =
      handover m a
        (s.setMotor m { s.motor m with refPos := a.target.getD (s.motor m).refPos, refFrac := 0 }) := by
  unfold arrivalTest
  refine (if_pos near).trans ?_
  rw [phase]
  rfl

/-- R29, Table 2-4: the motor of a RUNNING segment's end action. -/
theorem motor_endActionTaken_cases {m : MotorId} {s : State} (run : (s.motor m).state = .running) (a : Active)
    (ref : HoldRef) :
    (endActionTaken m a ref s).motor m =
      match a.seg.endAction with
      | .coast => Motor.rest .idle { s.motor m with active := none }
      | .brake => Motor.rest .braked { s.motor m with active := none }
      | .hold => { Motor.holdReference { s.motor m with active := none } ref with state := .holding }
      | .blend => { Motor.holdReference { s.motor m with active := none } ref with state := .holding } := by
  have self := State.motor_setMotor_self s m { s.motor m with active := none }
  have moves (st : MotorState) (ne : MotorState.running ≠ st) :
      ((s.setMotor m { s.motor m with active := none }).motor m).state ≠ st :=
    ((congrArg Motor.state self).trans run).trans_ne ne
  have holds := State.motor_modMotor_self (s.setMotor m { s.motor m with active := none }) m
    fun mo => { mo.holdReference ref with state := .holding }
  rw [self] at holds
  unfold endActionTaken applyEndAction
  cases a.seg.endAction with
  | coast => exact (motor_enterRest (moves .idle (by decide))).trans (by rw [self])
  | brake => exact (motor_enterRest (moves .braked (by decide))).trans (by rw [self])
  | hold => exact holds
  | blend => exact holds

theorem leaves_handover {m : MotorId} {s : State} {h : Segment} {rest : List Segment}
    (q : (s.motor m).queue = h :: rest) (a : Active) (here : ¬Gone s h) :
    Leaves m s
      (s.place (s.ownerLink (.motor m)) (.segmentEnd m a.seg.tag .done true (s.motor m).sampled 0 s.time))
      (handover m a s) [.segmentEnd m a.seg.tag .done true]
      { s.motor m with active := some (startedAs h (s.motor m).refPos a.direction), queue := rest } := by
  rw [handover_stays q a here]
  exact ⟨rfl, motor_handedOver m a h rest s, (sameLinks_setMotor s m _).place _ _,
    (atMotor_setMotor s m _).trans (atMotor_place m _ _ _)⟩

/-! ### Ticks of a RUNNING motor -/

/-- R43: a profile step keeps the position sampled at stage 2. -/
theorem sampled_stepReference (mo : Motor) (isense : Int) (a : Active) :
    ((mo.ticked isense).stepReference a).sampled = mo.position := mo.sampled_measure isense

/-- R27: the elapsed duration after a tick. -/
def elapsedNext (b : Active) : Nat :=
  if ¬(b.seg.kind = .move ∨ b.seg.kind = .goto) ∧ b.seg.duration.isSome ∧ b.phase ≠ .stopping then b.elapsed + 1
  else b.elapsed

/-- A profile step whose segment goes on. -/
theorem profile_goes {m : MotorId} {s : State} {b : Active} (act : (s.motor m).active = some b)
    (far : (b.seg.kind = .move ∨ b.seg.kind = .goto) →
      0 < remaining (s.motor m).refPos b ∨ (b.phase ≠ .decel ∧ b.phase ≠ .through))
    (goes : ¬(b.seg.kind = .move ∨ b.seg.kind = .goto) →
      if b.seg.duration.isSome ∧ b.phase ≠ .stopping then b.elapsed + 1 < b.seg.duration.getD 0
      else ¬(b.seg.kind = .speed ∧ b.phase = .stopping ∧ (s.motor m).vRef = 0)) :
    stepTests m b s =
      (s.setMotor m { s.motor m with active := some { b with elapsed := elapsedNext b } }, []) := by
  unfold elapsedNext
  by_cases travel : b.seg.kind = .move ∨ b.seg.kind = .goto
  · have same : s.setMotor m { s.motor m with active := some b } = s := by
      rw [← act]; exact State.setMotor_motor s m
    rw [stepTests_travel travel, arrivalTest_goes (far travel), if_neg fun k => k.1 travel]
    exact Prod.ext same.symm rfl
  · rw [stepTests_stays travel, durationTest_goes travel act (goes travel)]
    simp only [travel, not_false_eq_true, true_and]

/-- R5: the tick of a RUNNING motor that takes no trip, ends no segment and takes no stall. -/
theorem controlTick_goes {m : MotorId} {isense : Int} {s : State} {a b : Active}
    (run : (s.motor m).state = .running) (act : (s.motor m).active = some a)
    (few : ((s.motor m).adopt.measure isense).tripCount < 2) {n : Motor}
    (step : n = ((s.motor m).ticked isense).stepReference a) (stepped : n.active = some b)
    (far : (b.seg.kind = .move ∨ b.seg.kind = .goto) →
      0 < remaining n.refPos b ∨ (b.phase ≠ .decel ∧ b.phase ≠ .through))
    (goes : ¬(b.seg.kind = .move ∨ b.seg.kind = .goto) →
      if b.seg.duration.isSome ∧ b.phase ≠ .stopping then b.elapsed + 1 < b.seg.duration.getD 0
      else ¬(b.seg.kind = .speed ∧ b.phase = .stopping ∧ n.vRef = 0))
    {x : Motor} (ends : x = { n with active := some { b with elapsed := elapsedNext b } })
    (turns : ¬(x.granted s.governor m).Stalls) :
    controlTick m isense s =
      ((s.askSupply (.motor m) x.lawAsk).setMotor m
        { x.granted s.governor m with stallMs := (x.granted s.governor m).nextStallMs }, []) := by
  subst step
  have self := State.motor_setMotor_self s m (((s.motor m).ticked isense).stepReference a)
  have self' := State.motor_setMotor_self s m x
  have profile := profile_goes (m := m) (s := s.setMotor m (((s.motor m).ticked isense).stepReference a)) (b := b)
    (by rw [self]; exact stepped) (by rw [self]; exact far) (by rw [self]; exact goes)
  rw [self, ← ends, State.setMotor_setMotor] at profile
  have driven : ((s.setMotor m x).motor m).driving = true := by
    rw [self', ends]; exact (Motor.driving_iff _).mpr (.inl run)
  have finish := finishTick_drives driven (by rw [self']; exact turns)
  rw [self'] at finish
  refine (controlTick_running run act few stepped profile finish).trans (Prod.ext ?_ rfl)
  exact State.setMotor_setMotor (s.askSupply (.motor m) x.lawAsk) m _ _

/-- R5, R24, R50: the tick of a RUNNING motor whose profile step ends a segment, and which takes no stall. -/
theorem controlTick_ends {m : MotorId} {isense : Int} {s links : State} {a b : Active} {es : List Event} {mo : Motor}
    (run : (s.motor m).state = .running) (act : (s.motor m).active = some a)
    (few : ((s.motor m).adopt.measure isense).tripCount < 2) {n : Motor}
    (step : n = ((s.motor m).ticked isense).stepReference a) (stepped : n.active = some b)
    (profile : Leaves m s links (stepTests m b (s.setMotor m n)) es mo)
    (early : mo.stallMs + 1 < mo.config.stallTime) :
    ∃ t, controlTick m isense s = (t, es) ∧ AtMotor m s t ∧ SameLinks links t ∧ SameMotion mo (t.motor m) := by
  subst step
  obtain ⟨t, finish, atMotor, links, motion⟩ := finishTick_keeps (by rw [profile.motor]; exact early)
  rw [profile.motor] at motion
  refine ⟨t, ?_, profile.atMotor.trans atMotor, profile.links.trans links, motion⟩
  rw [controlTick_running run act few stepped profile.pair finish, List.append_nil]

end Sys2Proof.Machine

namespace Sys2Proof.Machine

open Sys2Proof.Safety

/-! ### Arrivals of a tick -/

section Arrivals

variable {m : MotorId} {isense : Int} {s : State} {a b : Active}

/-- R50: a MOVE or GOTO that arrives in DECEL. -/
theorem leaves_arrival_decel (run : (s.motor m).state = .running) {n : Motor}
    (step : n = ((s.motor m).ticked isense).stepReference a) (stepped : n.active = some b)
    (travel : b.seg.kind = .move ∨ b.seg.kind = .goto) (near : remaining n.refPos b ≤ 0) (phase : b.phase = .decel) :
    ∃ mo, Leaves m s
        (s.place (s.ownerLink (.motor m)) (.segmentEnd m b.seg.tag .done false (s.motor m).position 0 s.time))
        (stepTests m b (s.setMotor m n)) [.segmentEnd m b.seg.tag .done false] mo ∧
      mo.active = none ∧ mo.queue = (s.motor m).queue ∧ mo.refPos = b.target.getD n.refPos ∧ mo.refFrac = 0 ∧
      mo.vRef = 0 ∧ mo.accFrac = 0 ∧
      mo.state =
        (match b.seg.endAction with
         | .coast => .idle
         | .brake => .braked
         | .hold => .holding
         | .blend => .holding) ∧
      mo.stallMs ≤ (s.motor m).stallMs ∧
      mo.config = adopted (s.motor m).config (s.motor m).pendingConfig := by
  have self := State.motor_setMotor_self s m n
  have self' := State.motor_setMotor_self s m
    { n with refPos := b.target.getD n.refPos, refFrac := 0, vRef := 0, accFrac := 0 }
  have sampled : n.sampled = (s.motor m).position := by rw [step]; exact sampled_stepReference _ isense a
  have runs : n.state = .running := by rw [step]; exact run
  have arrived := arrivalTest_decel (m := m) (s := s.setMotor m n) (by rw [self]; exact near) phase
  rw [self, State.setMotor_setMotor, sampled] at arrived
  rw [stepTests_travel travel, arrived]
  have ended := leaves_endByAction ((congrArg Motor.active self').trans stepped) .done .arrived (s.motor m).position
  refine ⟨_, ended.since (atMotor_setMotor s m _) ((sameLinks_setMotor s m _).place _ _), ?_⟩
  rw [motor_endActionTaken_cases ((congrArg Motor.state self').trans runs), self', step]
  cases b.seg.endAction with
  | coast => exact ⟨rfl, rfl, rfl, rfl, rfl, rfl, rfl, Nat.zero_le _, rfl⟩
  | brake => exact ⟨rfl, rfl, rfl, rfl, rfl, rfl, rfl, Nat.zero_le _, rfl⟩
  | hold => exact ⟨rfl, rfl, rfl, rfl, rfl, rfl, rfl, le_rfl, rfl⟩
  | blend => exact ⟨rfl, rfl, rfl, rfl, rfl, rfl, rfl, le_rfl, rfl⟩

/-- R31: a MOVE or GOTO that arrives in THROUGH hands over from its target. -/
theorem stepTests_through {n : Motor} (travel : b.seg.kind = .move ∨ b.seg.kind = .goto)
    (near : remaining n.refPos b ≤ 0) (phase : b.phase = .through) :
    stepTests m b (s.setMotor m n) =
      handover m b (s.setMotor m { n with refPos := b.target.getD n.refPos, refFrac := 0 }) := by
  have self := State.motor_setMotor_self s m n
  rw [stepTests_travel travel, arrivalTest_through (by rw [self]; exact near) phase, self, State.setMotor_setMotor]

/-- R24, R31: an arrival in THROUGH whose head starts. -/
theorem leaves_arrival_through {n : Motor} (step : n = ((s.motor m).ticked isense).stepReference a)
    (travel : b.seg.kind = .move ∨ b.seg.kind = .goto) (near : remaining n.refPos b ≤ 0) (phase : b.phase = .through)
    {h : Segment} {rest : List Segment} (head : (s.motor m).queue = h :: rest) (here : ¬Gone s h) :
    Leaves m s
      (s.place (s.ownerLink (.motor m)) (.segmentEnd m b.seg.tag .done true (s.motor m).position 0 s.time))
      (stepTests m b (s.setMotor m n)) [.segmentEnd m b.seg.tag .done true]
      { n with
        refPos := b.target.getD n.refPos, refFrac := 0
        active := some (startedAs h (b.target.getD n.refPos) b.direction), queue := rest } := by
  have self := State.motor_setMotor_self s m { n with refPos := b.target.getD n.refPos, refFrac := 0 }
  have sampled : n.sampled = (s.motor m).position := by rw [step]; exact sampled_stepReference _ isense a
  have queue : n.queue = h :: rest := by rw [step]; exact head
  have handed := leaves_handover ((congrArg Motor.queue self).trans queue) b
    (s := s.setMotor m { n with refPos := b.target.getD n.refPos, refFrac := 0 }) here
  rw [self, show Motor.sampled { n with refPos := b.target.getD n.refPos, refFrac := 0 } = _ from sampled] at handed
  rw [stepTests_through travel near phase]
  exact handed.since (atMotor_setMotor s m _) ((sameLinks_setMotor s m _).place _ _)

/-- R24, R34: the tick of an arrival in THROUGH whose head's condition names a channel that is UNMAPPED or LOST. -/
theorem controlTick_handover_gone (run : (s.motor m).state = .running) (act : (s.motor m).active = some a)
    (few : ((s.motor m).adopt.measure isense).tripCount < 2) {n : Motor}
    (step : n = ((s.motor m).ticked isense).stepReference a) (stepped : n.active = some b)
    (travel : b.seg.kind = .move ∨ b.seg.kind = .goto) (near : remaining n.refPos b ≤ 0) (phase : b.phase = .through)
    {h : Segment} {rest : List Segment} (head : (s.motor m).queue = h :: rest) (gone : Gone s h) :
    ∃ t, controlTick m isense s =
        (t, [.segmentEnd m b.seg.tag .done true, .segmentEnd m h.tag .sensorLost false]) ∧
      t.motor m =
        resting .braked { n with active := none, queue := [], refPos := b.target.getD n.refPos, refFrac := 0 } ∧
      t.governor.supply (.motor m) = ⟨0, 0⟩ ∧ (∀ k, k ≠ m → t.motor k = s.motor k) ∧
      (∀ src, t.link src =
        ((s.place (s.ownerLink (.motor m))
          (.segmentEnd m b.seg.tag .done true (s.motor m).position 0 s.time)).place (s.ownerLink (.motor m))
          (.segmentEnd m h.tag .sensorLost false (s.motor m).position rest.length s.time)).link src) := by
  have self := State.motor_setMotor_self s m { n with refPos := b.target.getD n.refPos, refFrac := 0 }
  have sampled : Motor.sampled { n with refPos := b.target.getD n.refPos, refFrac := 0 } = (s.motor m).position := by
    rw [step]; exact sampled_stepReference _ isense a
  have queue : n.queue = h :: rest := by rw [step]; exact head
  have runs : n.state = .running := by rw [step]; exact run
  obtain ⟨events, motor, governor, others, links⟩ := handover_gone ((congrArg Motor.queue self).trans queue) b
    (s := s.setMotor m { n with refPos := b.target.getD n.refPos, refFrac := 0 }) gone
    (((congrArg Motor.state self).trans runs).trans_ne (by decide))
  rw [self] at motor
  rw [self, sampled] at links
  generalize hand : handover m b (s.setMotor m { n with refPos := b.target.getD n.refPos, refFrac := 0 }) = x
    at events motor governor others links
  have rests : ¬(x.1.motor m).driving = true := by
    rw [motor]; exact Motor.not_driving nofun nofun
  have profile : stepTests m b (s.setMotor m n) =
      (x.1, [.segmentEnd m b.seg.tag .done true, .segmentEnd m h.tag .sensorLost false]) :=
    (stepTests_through travel near phase).trans (hand.trans (Prod.ext rfl events))
  subst step
  refine ⟨x.1, controlTick_running run act few stepped profile (finishTick_rest rests), motor, ?_,
    fun k ne => (others k ne).trans (State.motor_setMotor_ne s _ ne.symm), ?_⟩
  · rw [governor]
    exact Governor.supply_setSupply_self _ (.motor m) ⟨0, 0⟩
  · intro src
    rw [links]
    exact (((sameLinks_setMotor s m _).place _ _).place _ _).link src

end Arrivals

/-! ### Trips of a tick (R16, R17) -/

/-- R16, R17: the tick of a driven motor that finds the current above trip_current for the second time in a row. -/
theorem controlTick_trips {m : MotorId} {isense : Int} {s : State} (driven : (s.motor m).driving = true)
    (many : 2 ≤ ((s.motor m).adopt.measure isense).tripCount) :
    controlTick m isense s = takeTrip m (s.setMotor m ((s.motor m).ticked isense)) := by
  have self := State.motor_setMotor_self s m ((s.motor m).adopt.measure isense)
  have self' := State.motor_setMotor_self s m ((s.motor m).ticked isense)
  have trip : tripStage m (s.setMotor m ((s.motor m).adopt.measure isense)) =
      takeTrip m (s.setMotor m ((s.motor m).ticked isense)) := by
    rw [tripStage_trips (by rw [self]; exact driven) (by rwa [self]), self, State.setMotor_setMotor]
    rfl
  have moves : ((s.setMotor m ((s.motor m).ticked isense)).motor m).state ≠ .fault := by
    rw [self']
    rcases (Motor.driving_iff _).mp driven with e | e <;> exact e.trans_ne (by decide)
  obtain ⟨_, es, leaves, -⟩ := takeTrip_leaves moves
  have fault : ((takeTrip m (s.setMotor m ((s.motor m).ticked isense))).1.motor m).state = .fault := by
    rw [leaves.motor]; rfl
  have rests : ¬((takeTrip m (s.setMotor m ((s.motor m).ticked isense))).1.motor m).driving = true :=
    Motor.not_driving (fault.trans_ne (by decide)) (fault.trans_ne (by decide))
  refine (controlTick_of_stages (trip.trans leaves.pair) (startStage_none (.inr (.inl fault)))
    (profileStage_none (fault.trans_ne (by decide))) (finishTick_rest rests)).trans ?_
  simp only [List.append_nil]
  exact leaves.pair.symm

/-- R16, R17, R28: the trip of a tick, its notices with the position and the current of this tick. -/
theorem controlTick_trips_leaves {m : MotorId} {isense : Int} {s : State} (driven : (s.motor m).driving = true)
    (many : 2 ≤ ((s.motor m).adopt.measure isense).tripCount) :
    let mo := s.motor m
    let link := s.ownerLink (.motor m)
    let fault : NoticeBody := .motorFault m .trip mo.position (min 8000 isense.natAbs) s.time
    ∃ links es, Leaves m s links (controlTick m isense s) es (Motor.rest .fault (mo.ticked isense).cleared) ∧
      (controlTick m isense s).1.governor.supply (.motor m) = ⟨0, 0⟩ ∧
      (mo.active = none → es = [] ∧ links = s.place link fault) ∧
      (∀ a, mo.active = some a → es = [.segmentEnd m a.seg.tag .fault false] ∧
        links = (s.place link (.segmentEnd m a.seg.tag .fault false mo.position mo.queue.length s.time)).place link
          fault) := by
  intro mo link fault
  have self := State.motor_setMotor_self s m (mo.ticked isense)
  have before := atMotor_setMotor s m (mo.ticked isense)
  have same := sameLinks_setMotor s m (mo.ticked isense)
  have sampled : (mo.ticked isense).sampled = mo.position := mo.sampled_measure isense
  have moves : ((s.setMotor m (mo.ticked isense)).motor m).state ≠ .fault := by
    rw [self]
    rcases (Motor.driving_iff mo).mp driven with e | e <;> exact e.trans_ne (by decide)
  obtain ⟨links, es, trip, released, idle, acts⟩ := takeTrip_leaves moves
  rw [self] at trip
  rw [self, sampled] at idle acts
  rw [controlTick_trips driven many]
  by_cases free : mo.active = none
  · obtain ⟨rfl, rfl⟩ := idle free
    exact ⟨_, _, trip.since before (same.place link fault), released, fun _ => ⟨rfl, rfl⟩,
      fun a act => absurd (act.symm.trans free) nofun⟩
  · obtain ⟨a, act⟩ := Option.ne_none_iff_exists'.mp free
    obtain ⟨rfl, rfl⟩ := acts a act
    refine ⟨_, _, trip.since before ((same.place link _).place link fault), released, fun e => absurd e free,
      fun b act' => ?_⟩
    obtain rfl := Option.some.inj (act.symm.trans act')
    exact ⟨rfl, rfl⟩

end Sys2Proof.Machine

namespace Sys2Proof.Machine

open Sys2Proof.Safety

/-- Settles O33: a profile step in numbers, the ticks of a RUNNING motor by what its step ends, and the tick's trip. -/
theorem tickRunningDrives : Obligations.TickRunningDrives := by
  unfold Obligations.TickRunningDrives
  refine ⟨?_, ?_, ?_⟩
  · intro mo a travel sgn left braking headWay b vt goal faster sum moved v v1
    have hb : brakingTest mo a = b := brakingTest_eq mo a
    have hvt : targetSpeed (brakingTest mo a) = vt := by
      rw [targetSpeed_brakingTest, hb]
      rfl
    have hspeed : mo.changedSpeed a = (v, if v = vt then 0 else sum % 1000) := by
      rw [changedSpeed_eq, changeSpeed_eq, hvt, stepRate_eq]
      rfl
    have hv1 : mo.nextSpeed a = v1 := by
      unfold Motor.nextSpeed
      rw [creepFloor_brakingTest, hspeed, hb]
      rfl
    rw [Motor.stepReference_eq, hv1, hspeed, phaseAdvance_brakingTest, hvt, hb]
  · intro s m isense a mo c vmeas iAvg count n run act few b stepped travel left runs elapsed eP eV integ u uLim ask g
      uOut stalled
    have step : n = (mo.ticked isense).stepReference a :=
      congrArg (Motor.stepReference · a) (mo.ticked_eq isense).symm
    have way : left = remaining n.refPos b := (remaining_signed n.refPos b).symm
    refine ⟨fun far goes turns => ?_, fun moves near phase early => ?_,
      fun h rest moves near phase head => ⟨fun here early => ?_, fun gone => ?_⟩⟩
    · let x : Motor := { n with active := some { b with elapsed := elapsed } }
      have sampled : x.sampled = mo.position := by
        rw [show x.sampled = n.sampled from rfl, step]; exact sampled_stepReference mo isense a
      obtain ⟨asked, granted⟩ := x.granted_eq s.governor m
      rw [sampled] at asked granted
      have stalls : stallCondition (x.granted s.governor m).config (x.granted s.governor m).uOut
          (x.granted s.governor m).vmeas = true ↔ stalled := by
        rw [stallCondition_iff, granted]
        rfl
      have counted : (x.granted s.governor m).nextStallMs = if stalled then mo.stallMs + 1 else 0 :=
        if_congr stalls rfl rfl
      rw [exec_controlTick, controlTick_goes run act few step stepped (way ▸ far) goes (x := x) rfl
        fun ⟨stall, late⟩ => turns ⟨stalls.mp stall, late⟩, counted, asked, granted]
      rfl
    · obtain ⟨mo', profile, active, queue, refPos, refFrac, vRef, accFrac, state, stallMs, config⟩ :=
        leaves_arrival_decel run step stepped moves (way ▸ near) phase
      obtain ⟨t, tick, atMotor, links, motion⟩ := controlTick_ends run act few step stepped profile
        (by rw [config]; exact (Nat.succ_le_succ stallMs).trans_lt early)
      exact ⟨t, by rw [exec_controlTick, tick]; rfl, motion.active.trans active, motion.queue.trans queue,
        motion.refPos.trans refPos, motion.refFrac.trans refFrac, motion.vRef.trans vRef,
        motion.accFrac.trans accFrac, motion.state.trans state, atMotor.motors, links.link, atMotor.quiet⟩
    · have profile := leaves_arrival_through step moves (way ▸ near) phase head here
      obtain ⟨t, tick, atMotor, links, motion⟩ := controlTick_ends run act few step stepped profile early
      exact ⟨t, by rw [exec_controlTick, tick]; rfl, motion.active, motion.queue,
        motion.state.trans (by rw [step]; exact run), motion.refPos, motion.refFrac, motion.vRef, motion.accFrac,
        atMotor.motors, links.link, atMotor.quiet⟩
    · obtain ⟨t, tick, motor, released, motors, links⟩ :=
        controlTick_handover_gone run act few step stepped moves (way ▸ near) phase head gone
      refine ⟨t, by rw [exec_controlTick, tick]; rfl, motor, released, motors, links, ?_⟩
      have quiet := quiet_controlTick m isense s
      rwa [tick] at quiet
  · intro s m isense mo c iAvg link fault driven high again
    have many : 2 ≤ (mo.adopt.measure isense).tripCount := by
      rw [show (mo.adopt.measure isense).tripCount = mo.overCount + 1 from if_pos high]
      omega
    obtain ⟨links, es, trip, released, idle, acts⟩ := controlTick_trips_leaves ((Motor.driving_iff mo).mpr driven) many
    refine ⟨_, es, by rw [exec_controlTick, trip.reactAll], ?_, released, trip.atMotor.motors, trip.atMotor.supplies,
      fun free => ?_, fun a act => ?_, trip.atMotor.quiet⟩
    · rw [trip.motor, Motor.ticked_eq]; rfl
    · obtain ⟨rfl, rfl⟩ := idle free
      exact ⟨rfl, trip.links.link⟩
    · obtain ⟨rfl, rfl⟩ := acts a act
      exact ⟨rfl, trip.links.link⟩

end Sys2Proof.Machine

namespace Sys2Proof.Machine

open Sys2Proof.Safety

/-! ### Every command keeps the bound on the notices (R180) -/

/-- R180: from one state to the next, each link keeps the bound on its notices. -/
def KeepsBound (s t : State) : Prop := ∀ src, QueueBoundKept (s.link src) (t.link src)

theorem KeepsBound.refl (s : State) : KeepsBound s s := fun _ h => h

theorem KeepsBound.trans {a b c : State} (h : KeepsBound a b) (k : KeepsBound b c) : KeepsBound a c :=
  fun src e => k src (h src e)

theorem KeepsBound.noticeInv {s t : State} (k : KeepsBound s t) (h : NoticeInv s) : NoticeInv t :=
  fun src => k src (h src)

theorem keepsBound_setLink {s : State} {src : Source} {l : LinkUnit} (h : QueueBoundKept (s.link src) l) :
    KeepsBound s (s.setLink src l) := by
  intro a
  rw [State.link_setLink]
  split
  · next e => exact e ▸ h
  · exact fun e => e

theorem keepsBound_foldl {α : Type} {f : State → α → State} (h : ∀ s a, KeepsBound s (f s a)) (xs : List α)
    (s : State) : KeepsBound s (xs.foldl f s) := by
  induction xs generalizing s with
  | nil => exact .refl s
  | cons a rest ih => exact (h s a).trans (ih _)

theorem keepsBound_ite {p : Prop} [Decidable p] {s a b : State} (h : KeepsBound s a) (k : KeepsBound s b) :
    KeepsBound s (if p then a else b) := by
  split
  · exact h
  · exact k

/-- A step that keeps the bound and changes one claim record keeps it. -/
theorem keepsBound_setClaim (s : State) (r : Resource) (c : Claim) : KeepsBound s (s.setClaim r c) := by
  cases r <;> exact .refl s

theorem link_withClaims (t s : State) (src : Source) : (withClaims t s).link src = t.link src := by cases src <;> rfl

theorem keepsBound_endClaim (r : Resource) (reason : ClaimEndReason) (new : Claim) (s : State) :
    KeepsBound s (endClaim r reason new s) := fun src => by
  have kept := (quiet_endClaim r reason new s).notices src
  rwa [link_withClaims] at kept

/-! ### The blocks' acts on requests -/

theorem keepsBound_claimRequest (src : Source) (f : ClaimFields) (s : State) :
    KeepsBound s (claimRequest src f s).1 := by
  unfold claimRequest
  dsimp only
  split
  · exact .refl s
  · split
    · exact .refl s
    · exact keepsBound_foldl (fun t r => keepsBound_setClaim t r _) _ s

theorem keepsBound_releaseRequest (src : Source) (set : List Resource) (s : State) :
    KeepsBound s (releaseRequest src set s).1 := by
  unfold releaseRequest
  dsimp only
  split
  · exact .refl s
  · exact keepsBound_foldl (fun t r => keepsBound_ite (keepsBound_endClaim r _ _ t) (.refl t)) _ s

theorem keepsBound_renewRequest (src : Source) (set : List Resource) (s : State) :
    KeepsBound s (renewRequest src set s).1 := by
  unfold renewRequest
  dsimp only
  split
  · exact .refl s
  · exact keepsBound_foldl (fun t r => keepsBound_ite (keepsBound_setClaim t r _) (.refl t)) _ s

theorem keepsBound_takeRequest (f : ClaimFields) (s : State) : KeepsBound s (takeRequest f s).1 := by
  unfold takeRequest
  dsimp only
  split
  · exact .refl s
  · exact keepsBound_foldl
      (fun t r => keepsBound_ite (keepsBound_endClaim r _ _ t) (keepsBound_setClaim t r _)) _ s

theorem keepsBound_ownerOnly {act : State → State × Reply} (h : ∀ s, KeepsBound s (act s).1) (r : Resource)
    (src : Source) (s : State) : KeepsBound s (ownerOnly r src act s).1 := by
  unfold ownerOnly
  split
  · dsimp only
    split
    · exact (h s).trans (keepsBound_setClaim _ r _)
    · exact h s
  · exact .refl s

theorem keepsBound_motorRequest {act : MotorId → State → State × Reply} (h : ∀ m s, KeepsBound s (act m s).1)
    (n : Nat) (src : Source) (s : State) : KeepsBound s (motorRequest n src act s).1 := by
  unfold motorRequest
  split
  · exact .refl s
  · exact keepsBound_ownerOnly (h _) _ src s

theorem keepsBound_voiceRequest {act : VoiceId → State → State × Reply} (h : ∀ v s, KeepsBound s (act v s).1)
    (n : Nat) (src : Source) (s : State) : KeepsBound s (voiceRequest n src act s).1 := by
  unfold voiceRequest
  split
  · exact .refl s
  · exact keepsBound_ownerOnly (h _) _ src s

theorem keepsBound_motorSet (f : MotorSetFields) (m : MotorId) (s : State) : KeepsBound s (motorSet f m s).1 := by
  unfold motorSet
  split
  · exact .refl s
  · split
    · exact .refl s
    · exact .refl s

theorem keepsBound_motorRead (n : Nat) (s : State) : KeepsBound s (motorRead n s).1 := by
  unfold motorRead
  split <;> exact .refl s

theorem keepsBound_zeroMotor (value : Word) (m : MotorId) (s : State) : KeepsBound s (zeroMotor value m s).1 := by
  unfold zeroMotor
  split <;> exact .refl s

theorem keepsBound_clearFault (m : MotorId) (s : State) : KeepsBound s (clearFault m s).1 := by
  unfold clearFault
  split
  · exact (quiet_enterRest m .idle s).notices
  · exact .refl s

theorem keepsBound_segMotor (r : RawSegment) (m : MotorId) (s : State) : KeepsBound s (segMotor r m s).1 := by
  unfold segMotor
  split
  · exact .refl s
  · split <;> exact .refl s

theorem keepsBound_haltMotor (a : Coded StopAction) (m : MotorId) (s : State) :
    KeepsBound s (haltMotor a m s).1 := by
  unfold haltMotor
  split
  · exact .refl s
  · exact (quiet_afterEvents (quiet_stopAction m _ _ s)).notices

theorem keepsBound_handGrant (s : State) (r : Resource) : KeepsBound s (handGrant s r) := by
  cases r <;> exact .refl s

theorem keepsBound_budgetSet (b : Int) (s : State) : KeepsBound s (budgetSet b s).1 := by
  unfold budgetSet setBudget
  dsimp only
  split
  · exact .refl s
  · exact KeepsBound.trans (b := { s with governor := s.governor.scaled (clampNat 500 8000 b) }) (.refl s)
      (keepsBound_foldl keepsBound_handGrant _ _)

theorem keepsBound_chainRead (port : Nat) (s : State) : KeepsBound s (chainRead port s).1 := by
  unfold chainRead
  split <;> exact .refl s

theorem keepsBound_moduleRead (port pos : Nat) (s : State) : KeepsBound s (moduleRead port pos s).1 := by
  unfold moduleRead
  split
  · exact .refl s
  · split <;> exact .refl s

theorem keepsBound_mapSet (f : MapFields) (s : State) : KeepsBound s (mapSet f s).1 := by
  unfold mapSet
  split
  · split
    · exact .refl s
    · split
      · exact .refl s
      · dsimp only
        split
        · exact .refl s
        · exact .refl s
        · exact (calm_mapChannel _ _ s).notices
  · exact .refl s

theorem keepsBound_mapClear (n : Nat) (s : State) : KeepsBound s (mapClear n s).1 := by
  unfold mapClear
  split
  · exact .refl s
  · next ch _ =>
    have cleared : KeepsBound s (clearChannel ch s) := (calm_clearChannel ch s).notices
    have noticed : KeepsBound s (channelNotice ch .unmapped .cleared s) := (quiet_placeBoth s _).notices
    split <;> dsimp only
    · exact .refl s
    · exact .refl s
    · exact noticed
    all_goals exact cleared

theorem keepsBound_channelRead (n : Nat) (s : State) : KeepsBound s (channelRead n s).1 := by
  unfold channelRead
  split <;> exact .refl s

theorem keepsBound_watchSet (src : Source) (f : WatchFields) (s : State) : KeepsBound s (watchSet src f s).1 := by
  unfold watchSet
  split
  · split
    · split
      · exact .refl s
      · split
        · exact .refl s
        · unfold placeWatch
          split
          · exact .refl s
          · split <;> exact .refl s
    · exact .refl s
  · exact .refl s

theorem keepsBound_watchClear (src : Source) (n : Nat) (s : State) : KeepsBound s (watchClear src n s).1 := by
  unfold watchClear
  split
  · exact .refl s
  · split
    · exact .refl s
    · split <;> exact .refl s

theorem keepsBound_reactSet (src : Source) (f : ReactFields) (s : State) : KeepsBound s (reactSet src f s).1 := by
  unfold reactSet
  split
  · split <;> exact .refl s
  · exact .refl s

theorem keepsBound_reactClear (src : Source) (n : Nat) (s : State) : KeepsBound s (reactClear src n s).1 := by
  unfold reactClear
  split
  · exact .refl s
  · split
    · exact .refl s
    · split <;> exact .refl s

theorem keepsBound_reactRead (x : ReadTarget) (s : State) : KeepsBound s (reactRead x s).1 := by
  unfold reactRead
  split
  · split <;> exact .refl s
  · split <;> exact .refl s
  · exact .refl s

theorem keepsBound_windowSet (f : WindowFields) (s : State) : KeepsBound s (windowSet f s).1 := by
  unfold windowSet
  split
  · exact .refl s
  · split
    · exact .refl s
    · split
      · exact .refl s
      · split <;> exact .refl s

theorem keepsBound_storeWrite (src : Source) (base : Nat) (bytes : List Byte) (s : State) :
    KeepsBound s (storeWrite src base bytes s).1 := by
  unfold storeWrite
  split <;> exact .refl s

theorem keepsBound_storeRead (src : Source) (base count : Nat) (s : State) :
    KeepsBound s (storeRead src base count s).1 := by
  unfold storeRead
  split
  · exact .refl s
  · split <;> exact .refl s

theorem keepsBound_clipDefine (src : Source) (f : ClipFields) (s : State) : KeepsBound s (clipDefine src f s).1 := by
  unfold clipDefine
  split
  · split
    · split
      · exact .refl s
      · split <;> exact .refl s
    · exact .refl s
  · exact .refl s

theorem keepsBound_clipRemove (src : Source) (n : Nat) (s : State) : KeepsBound s (clipRemove src n s).1 := by
  unfold clipRemove
  split
  · exact .refl s
  · split
    · exact .refl s
    · split
      · exact .refl s
      · split <;> exact .refl s

theorem keepsBound_cueSet (src : Source) (f : CueFields) (s : State) : KeepsBound s (cueSet src f s).1 := by
  unfold cueSet
  split
  · split <;> exact .refl s
  · exact .refl s

theorem keepsBound_cueClear (src : Source) (n : Nat) (s : State) : KeepsBound s (cueClear src n s).1 := by
  unfold cueClear
  split
  · exact .refl s
  · split
    · exact .refl s
    · split <;> exact .refl s

theorem keepsBound_playRequest (cue : Nat) (v : VoiceId) (s : State) : KeepsBound s (playRequest cue v s).1 := by
  unfold playRequest
  split
  · exact .refl s
  · split
    · exact .refl s
    · exact (quiet_playVoice quiet_react v _ s).notices

theorem keepsBound_stopRequest (o : Coded FadeOption) (v : VoiceId) (s : State) :
    KeepsBound s (stopRequest o v s).1 := by
  unfold stopRequest
  split
  · exact .refl s
  · exact (quiet_stopVoice quiet_react v _ s).notices

theorem keepsBound_voiceGain (level : Int) (v : VoiceId) (s : State) : KeepsBound s (voiceGain level v s).1 :=
  KeepsBound.trans (b := s.modVoice v fun vo => { vo with level := clampNat 0 1024 level }) (.refl s)
    (keepsBound_ite (quiet_retarget v _).notices (.refl _))

theorem keepsBound_periodExpiry (n : SubId) (s : State) : KeepsBound s (periodExpiry n s) := by
  unfold periodExpiry
  split <;> exact .refl s

theorem keepsBound_subscribe (src : Source) (f : SubscribeFields) (s : State) :
    KeepsBound s (subscribe src f s).1 := by
  unfold subscribe
  split
  · exact .refl s
  · split
    · exact .refl s
    · split
      · exact .refl s
      · exact .refl s
      · exact KeepsBound.trans (b := s.setSub _ _) (.refl s) (keepsBound_periodExpiry _ _)

theorem keepsBound_unsubscribe (src : Source) (id : Nat) (s : State) : KeepsBound s (unsubscribe src id s).1 := by
  unfold unsubscribe
  split
  · exact .refl s
  · split
    · exact .refl s
    · split <;> exact .refl s

/-- What a block does with a complete frame of kind `k` keeps the bound. -/
theorem keepsBound_blockAct (k : RequestKind) (src : Source) (b : List Byte) (i : Fin 8) (s : State) :
    KeepsBound s (blockAct k src b i s).1 := by
  cases k with
  | ident => exact .refl s
  | reset => exact .refl s
  | claim => exact keepsBound_claimRequest src _ s
  | release => exact keepsBound_releaseRequest src _ s
  | renew => exact keepsBound_renewRequest src _ s
  | take => exact keepsBound_takeRequest _ s
  | motorSet => exact keepsBound_motorRequest (keepsBound_motorSet _) _ src s
  | motorRead => exact keepsBound_motorRead _ s
  | zero => exact keepsBound_motorRequest (keepsBound_zeroMotor _) _ src s
  | clearFault => exact keepsBound_motorRequest keepsBound_clearFault _ src s
  | seg => exact keepsBound_motorRequest (keepsBound_segMotor _) _ src s
  | halt => exact keepsBound_motorRequest (keepsBound_haltMotor _) _ src s
  | budgetSet => exact keepsBound_budgetSet _ s
  | budgetRead => exact .refl s
  | chainRestart => exact (steady_chainRestart _ _ s).notices
  | chainSet => exact (steady_chainSet _ _ s).notices
  | chainRead => exact keepsBound_chainRead _ s
  | moduleRead => exact keepsBound_moduleRead _ _ s
  | modulePageWrite => exact (steady_pageRequest src _ _ _ _ i s).notices
  | modulePageRead => exact (steady_pageRequest src _ _ _ _ i s).notices
  | mapSet => exact keepsBound_mapSet _ s
  | mapClear => exact keepsBound_mapClear _ s
  | channelRead => exact keepsBound_channelRead _ s
  | watchSet => exact keepsBound_watchSet src _ s
  | watchClear => exact keepsBound_watchClear src _ s
  | reactSet => exact keepsBound_reactSet src _ s
  | reactClear => exact keepsBound_reactClear src _ s
  | reactRead => exact keepsBound_reactRead _ s
  | windowSet => exact keepsBound_windowSet _ s
  | storeWrite => exact keepsBound_storeWrite src _ _ s
  | storeRead => exact keepsBound_storeRead src _ _ s
  | clipDefine => exact keepsBound_clipDefine src _ s
  | clipRemove => exact keepsBound_clipRemove src _ s
  | cueSet => exact keepsBound_cueSet src _ s
  | cueClear => exact keepsBound_cueClear src _ s
  | play => exact keepsBound_voiceRequest (keepsBound_playRequest _) _ src s
  | stop => exact keepsBound_voiceRequest (keepsBound_stopRequest _) _ src s
  | voiceGain => exact keepsBound_voiceRequest (keepsBound_voiceGain _) _ src s
  | masterSet => exact .refl s
  | subscribe => exact keepsBound_subscribe src _ s
  | unsubscribe => exact keepsBound_unsubscribe src _ s

/-! ### Requests and frames -/

theorem keepsBound_serveLater {act : Fin 8 → State → State × Option Reply} (h : ∀ i s, KeepsBound s (act i s).1)
    (k : RequestKind) (src : Source) (tag : Byte) (s : State) : KeepsBound s (serveLater k src tag act s) := by
  unfold serveLater
  split
  · split
    · exact .refl s
    · next i _ =>
      have taken : KeepsBound s (s.setLink src ((s.link src).reserve i ⟨RequestKind.code k, tag⟩)) :=
        keepsBound_setLink fun e => e
      dsimp only
      split
      · exact taken.trans (steady_post _ src i _).notices
      · have acts := taken.trans (h i _)
        split
        · next e => rw [e] at acts; exact acts.trans (steady_post _ src i _).notices
        · next e => rw [e] at acts; exact acts
  · exact .refl s

theorem keepsBound_serve {act : State → State × Reply} (h : ∀ s, KeepsBound s (act s).1) (k : RequestKind)
    (src : Source) (tag : Byte) (s : State) : KeepsBound s (serve k src tag act s) :=
  keepsBound_serveLater (fun _ => h) k src tag s

theorem keepsBound_takeUnknown (src : Source) (tag kind : Byte) (s : State) :
    KeepsBound s (takeUnknown src tag kind s) := by
  unfold takeUnknown
  split
  · split
    · exact .refl s
    · exact keepsBound_setLink fun e => e
  · exact .refl s

theorem keepsBound_takeFrame (src : Source) (kind tag : Byte) (body : List Byte) (s : State) :
    KeepsBound s (takeFrame src kind tag body s) := by
  unfold takeFrame
  split
  · exact keepsBound_takeUnknown src tag kind s
  · refine keepsBound_serveLater (fun i t => ?_) _ src tag s
    unfold checkedAct
    split
    · exact keepsBound_blockAct _ src body i t
    · exact .refl t

theorem keepsBound_setRx (s : State) (link : Source) (rx : Assembler) : KeepsBound s (s.setRx link rx) :=
  keepsBound_setLink fun e => e

theorem keepsBound_checkFrame (link : Source) (len : Byte) (got : List Byte) (check : Byte) (s : State) :
    KeepsBound s (checkFrame link len got check s) := by
  unfold checkFrame
  split
  · split
    · exact keepsBound_takeFrame link _ _ _ s
    · exact .refl s
  · exact .refl s

theorem keepsBound_assemble (link : Source) (b : Byte) (s : State) : KeepsBound s (assemble link b s) := by
  unfold assemble
  split
  · exact keepsBound_ite (keepsBound_setRx s link _) (.refl s)
  · exact keepsBound_setRx s link _
  · exact keepsBound_ite (keepsBound_setRx s link _)
      ((keepsBound_setRx s link _).trans (keepsBound_checkFrame link _ _ b _))

theorem keepsBound_markSent (s : State) (x : SentItem) : KeepsBound s (markSent s x) := by
  unfold markSent
  split <;> exact .refl s

theorem keepsBound_sendTelemetry (link : Source) (s : State) : KeepsBound s (sendTelemetry link s) :=
  (keepsBound_foldl keepsBound_markSent _ s).trans (keepsBound_setLink fun e => e)

/-- R181: a notice that is sent leaves its queue. -/
theorem keepsBound_chooseFrame (link : Source) (s : State) : KeepsBound s (chooseFrame link s) := by
  unfold chooseFrame
  dsimp only
  split
  · exact keepsBound_setLink fun e => e
  · split
    · exact keepsBound_sendTelemetry link s
    · split
      · next n rest q =>
        refine keepsBound_setLink fun e => Nat.le_trans (Nat.le_succ rest.length) ?_
        rw [q] at e
        exact e
      · exact keepsBound_ite (.refl s) (keepsBound_sendTelemetry link s)

theorem LinkUnit.sent_notices (l : LinkUnit) : l.sent.notices = l.notices := by
  unfold LinkUnit.sent
  split <;> rfl

/-! ### Resets and LINK_UP -/

/-- R180, R182: a link unit that is reset holds no notice. -/
theorem keepsBound_withPins (s t : State) : KeepsBound s (t.withPins s) := fun src _ => by
  cases src <;> exact Nat.zero_le 16

theorem keepsBound_started (cause : StartCause) (s : State) : KeepsBound s (started cause s) :=
  (quiet_placeBoth s _).notices

theorem keepsBound_freeClip (s : State) (n : ClipId) : KeepsBound s (freeClip n s) := .refl s

theorem keepsBound_withSounds (s t : State) : KeepsBound t (t.withSounds s) := by
  have sounds : KeepsBound t { t with store := s.store, windows := s.windows, clips := s.clips, cues := s.cues } :=
    .refl t
  unfold State.withSounds
  generalize allClips = all
  exact sounds.trans (keepsBound_foldl keepsBound_freeClip all _)

theorem keepsBound_softReset (s : State) : KeepsBound s (softReset s) :=
  ((keepsBound_withPins s _).trans (keepsBound_withSounds s _)).trans (keepsBound_started _ _)

theorem keepsBound_frameSent (link : Source) (s : State) : KeepsBound s (frameSent link s) := by
  unfold frameSent
  split
  · exact .refl s
  · have sent : KeepsBound s (s.setLink link (s.link link).sent) :=
      keepsBound_setLink fun e => by rwa [LinkUnit.sent_notices]
    exact keepsBound_ite (sent.trans (keepsBound_softReset _)) sent

theorem keepsBound_stopTablet (s : State) : KeepsBound s (stopTablet s) := fun src => by
  cases src <;> exact fun e => e

theorem keepsBound_setWatch (s : State) (n : EntryId) (x : Option Watch) : KeepsBound s (s.setWatch n x) := .refl s

theorem keepsBound_setReaction (s : State) (n : EntryId) (x : Option Reaction) : KeepsBound s (s.setReaction n x) :=
  .refl s

theorem keepsBound_dropTabletEntries (s : State) : KeepsBound s (dropTabletEntries s) := by
  unfold dropTabletEntries
  refine keepsBound_foldl (fun t n => ?_) allEntries s
  exact (keepsBound_ite (keepsBound_setWatch t n none) (.refl t)).trans
    (keepsBound_ite (keepsBound_setReaction _ n none) (.refl _))

theorem keepsBound_setSub (s : State) (n : SubId) (x : Option Subscription) : KeepsBound s (s.setSub n x) := .refl s

theorem keepsBound_dropTabletSubs (s : State) : KeepsBound s (dropTabletSubs s) := by
  unfold dropTabletSubs
  exact keepsBound_foldl (fun t n => keepsBound_ite (keepsBound_setSub t n none) (.refl t)) allSubs s

theorem keepsBound_modChain (s : State) (p : PortId) (f : Chain → Chain) : KeepsBound s (s.modChain p f) := .refl s

theorem keepsBound_endTabletClaims (s : State) : KeepsBound s (endTabletClaims s) := by
  unfold endTabletClaims
  exact keepsBound_foldl (fun t r => keepsBound_ite (keepsBound_endClaim r _ _ t) (.refl t)) allResources s

theorem keepsBound_resetTablet (s : State) : KeepsBound s { s with tablet := LinkUnit.reset s.tablet } :=
  fun src => by
    cases src with
    | program => exact fun e => e
    | tablet => exact fun _ => Nat.zero_le 16

theorem keepsBound_linkUpFall (s : State) : KeepsBound s (linkUpFall s) := by
  have entries := (keepsBound_stopTablet s).trans (keepsBound_dropTabletEntries _)
  have subs := entries.trans (keepsBound_dropTabletSubs _)
  have reads := subs.trans (keepsBound_foldl (fun t p => keepsBound_modChain t p Chain.dropTabletReads) allPorts _)
  exact (reads.trans (keepsBound_endTabletClaims _)).trans (keepsBound_resetTablet _)

theorem keepsBound_linkUpRise (s : State) : KeepsBound s (linkUpRise s) := by
  have resets : KeepsBound s { s with linkUp := true, tablet := LinkUnit.reset s.tablet } := keepsBound_resetTablet s
  exact resets.trans (quiet_place _ .tablet _).notices

theorem keepsBound_passClaims (s : State) : KeepsBound s (passClaims s) := by
  unfold passClaims
  exact keepsBound_foldl (fun t r => keepsBound_setClaim t r _) allResources s

theorem keepsBound_passChains (s : State) : KeepsBound s (passChains s) := by
  unfold passChains
  exact keepsBound_foldl (fun t p => keepsBound_modChain t p _) allPorts s

theorem keepsBound_passSubs (s : State) : KeepsBound s (passSubs s) := by
  unfold passSubs
  exact keepsBound_foldl (fun t n => keepsBound_setSub t n _) allSubs s

theorem keepsBound_idle (s : State) : KeepsBound s (idle s) := by
  have time : KeepsBound s { s with time := s.time + 1 } := .refl s
  exact ((time.trans (keepsBound_passClaims _)).trans (keepsBound_passChains _)).trans (keepsBound_passSubs _)

/-! ### One command -/

/-- An outcome is a next state, and the links keep the bound on their notices. -/
def NextKeepsBound (s : State) (o : Out) : Prop := ∃ t, o = .next t ∧ KeepsBound s t

theorem nextKeepsBound {s t : State} (h : KeepsBound s t) : NextKeepsBound s (.next t) := ⟨t, rfl, h⟩

theorem nextKeepsBound_serve {act : State → State × Reply} (h : ∀ s, KeepsBound s (act s).1) (k : RequestKind)
    (src : Source) (tag : Byte) (s : State) : NextKeepsBound s (.next (serve k src tag act s)) :=
  nextKeepsBound (keepsBound_serve h k src tag s)

/-- R180: every command keeps the bound on the notices of each link. -/
theorem exec_keepsBound (c : Instr) (s : State) : NextKeepsBound s (exec c s) := by
  cases c with
  | powerOn => exact nextKeepsBound ((keepsBound_withPins s _).trans (keepsBound_started _ _))
  | softReset => exact nextKeepsBound (keepsBound_softReset s)
  | linkUpFall => exact nextKeepsBound (keepsBound_ite (keepsBound_linkUpFall s) (.refl s))
  | linkUpRise => exact nextKeepsBound (keepsBound_ite (.refl s) (keepsBound_linkUpRise s))
  | readyInChange link high =>
    refine nextKeepsBound ?_
    split <;> exact keepsBound_setLink fun e => e
  | frameByteTimeout link => exact nextKeepsBound (keepsBound_setRx s link _)
  | unknownKind src tag kind => exact nextKeepsBound (keepsBound_ite (.refl s) (keepsBound_takeUnknown src tag kind s))
  | frameStart link => exact nextKeepsBound (keepsBound_ite (keepsBound_chooseFrame link s) (.refl s))
  | frameSent link => exact nextKeepsBound (keepsBound_ite (.refl s) (keepsBound_frameSent link s))
  | ident src tag => exact nextKeepsBound_serve .refl _ src tag s
  | reset src tag => exact nextKeepsBound_serve .refl _ src tag s
  | claim src tag f => exact nextKeepsBound_serve (keepsBound_claimRequest src f) _ src tag s
  | release src tag set => exact nextKeepsBound_serve (keepsBound_releaseRequest src set) _ src tag s
  | renew src tag set => exact nextKeepsBound_serve (keepsBound_renewRequest src set) _ src tag s
  | take src tag f => exact nextKeepsBound_serve (keepsBound_takeRequest f) _ src tag s
  | leaseExpiry r => exact nextKeepsBound (keepsBound_ite (keepsBound_endClaim r _ _ s) (.refl s))
  | motorSet src tag n f =>
    exact nextKeepsBound_serve (keepsBound_motorRequest (keepsBound_motorSet f) n src) _ src tag s
  | motorRead src tag n => exact nextKeepsBound_serve (keepsBound_motorRead n) _ src tag s
  | zero src tag n x => exact nextKeepsBound_serve (keepsBound_motorRequest (keepsBound_zeroMotor x) n src) _ src tag s
  | clearFault src tag n =>
    exact nextKeepsBound_serve (keepsBound_motorRequest keepsBound_clearFault n src) _ src tag s
  | seg src tag n r => exact nextKeepsBound_serve (keepsBound_motorRequest (keepsBound_segMotor r) n src) _ src tag s
  | halt src tag n a => exact nextKeepsBound_serve (keepsBound_motorRequest (keepsBound_haltMotor a) n src) _ src tag s
  | encoderStep m a b => exact nextKeepsBound (.refl s)
  | controlTick m i => exact nextKeepsBound (quiet_afterEvents (quiet_controlTick m i s)).notices
  | trip m => exact nextKeepsBound (keepsBound_ite (quiet_afterEvents (quiet_takeTrip m s)).notices (.refl s))
  | durationExpiry m =>
    refine nextKeepsBound ?_
    unfold expireDuration
    split
    · exact .refl s
    · exact keepsBound_ite
        ((quiet_modMotor s m _).trans (quiet_afterEvents (quiet_durationExpired m _))).notices (.refl s)
  | stall m => exact nextKeepsBound (keepsBound_ite (quiet_afterEvents (quiet_takeStall m s)).notices (.refl s))
  | budgetSet src tag b => exact nextKeepsBound_serve (keepsBound_budgetSet b) _ src tag s
  | budgetRead src tag => exact nextKeepsBound_serve .refl _ src tag s
  | chainRestart src tag port o =>
    exact nextKeepsBound_serve (fun t => (steady_chainRestart port o t).notices) _ src tag s
  | chainSet src tag port f => exact nextKeepsBound_serve (fun t => (steady_chainSet port f t).notices) _ src tag s
  | chainRead src tag port => exact nextKeepsBound_serve (keepsBound_chainRead port) _ src tag s
  | moduleRead src tag port pos => exact nextKeepsBound_serve (keepsBound_moduleRead port pos) _ src tag s
  | modulePageWrite src tag port pos page b =>
    exact nextKeepsBound (keepsBound_serveLater
      (fun i t => (steady_pageRequest src port pos page (some b) i t).notices) _ src tag s)
  | modulePageRead src tag port pos page =>
    exact nextKeepsBound (keepsBound_serveLater
      (fun i t => (steady_pageRequest src port pos page none i t).notices) _ src tag s)
  | resetRestExpiry p => exact nextKeepsBound (steady_restExpiry p s).notices
  | trainRetryTimer p => exact nextKeepsBound (steady_trainRetry p s).notices
  | emptyProbeTimer p => exact nextKeepsBound (steady_probeExpiry p s).notices
  | faultRetryTimer p => exact nextKeepsBound (steady_faultRetry p s).notices
  | syncTimerExpiry p => exact nextKeepsBound (steady_syncExpiry p s).notices
  | callSent p => exact nextKeepsBound (steady_callSent p s).notices
  | transactionEnd p a b => exact nextKeepsBound (steady_answersHeard p false a b s).notices
  | answerTimeout p a b => exact nextKeepsBound (steady_answersHeard p true a b s).notices
  | missesAbsent p k => exact nextKeepsBound (steady_missesAbsent p k s).notices
  | settleExpiry p k => exact nextKeepsBound (steady_settleExpiry p k s).notices
  | staleDeadline ch => exact nextKeepsBound (keepsBound_ite (.refl s) (.refl s))
  | mapSet src tag f => exact nextKeepsBound_serve (keepsBound_mapSet f) _ src tag s
  | mapClear src tag n => exact nextKeepsBound_serve (keepsBound_mapClear n) _ src tag s
  | channelRead src tag n => exact nextKeepsBound_serve (keepsBound_channelRead n) _ src tag s
  | watchSet src tag f => exact nextKeepsBound_serve (keepsBound_watchSet src f) _ src tag s
  | watchClear src tag n => exact nextKeepsBound_serve (keepsBound_watchClear src n) _ src tag s
  | reactSet src tag f => exact nextKeepsBound_serve (keepsBound_reactSet src f) _ src tag s
  | reactClear src tag n => exact nextKeepsBound_serve (keepsBound_reactClear src n) _ src tag s
  | reactRead src tag x => exact nextKeepsBound_serve (keepsBound_reactRead x) _ src tag s
  | windowSet src tag f => exact nextKeepsBound_serve (keepsBound_windowSet f) _ src tag s
  | storeWrite src tag o b => exact nextKeepsBound_serve (keepsBound_storeWrite src o b) _ src tag s
  | storeRead src tag o n => exact nextKeepsBound_serve (keepsBound_storeRead src o n) _ src tag s
  | clipDefine src tag f => exact nextKeepsBound_serve (keepsBound_clipDefine src f) _ src tag s
  | clipRemove src tag n => exact nextKeepsBound_serve (keepsBound_clipRemove src n) _ src tag s
  | cueSet src tag f => exact nextKeepsBound_serve (keepsBound_cueSet src f) _ src tag s
  | cueClear src tag n => exact nextKeepsBound_serve (keepsBound_cueClear src n) _ src tag s
  | play src tag v c =>
    exact nextKeepsBound_serve (keepsBound_voiceRequest (keepsBound_playRequest c) v src) _ src tag s
  | stop src tag v o =>
    exact nextKeepsBound_serve (keepsBound_voiceRequest (keepsBound_stopRequest o) v src) _ src tag s
  | voiceGain src tag v x =>
    exact nextKeepsBound_serve (keepsBound_voiceRequest (keepsBound_voiceGain x) v src) _ src tag s
  | masterSet src tag x => exact nextKeepsBound_serve (fun t => .refl t) _ src tag s
  | outputSample =>
    obtain ⟨x, quiet⟩ := quiet_outputSample s
    have aout : KeepsBound s { s with aout := x } := .refl s
    exact nextKeepsBound (aout.trans quiet.notices)
  | subscribe src tag f => exact nextKeepsBound_serve (keepsBound_subscribe src f) _ src tag s
  | unsubscribe src tag n => exact nextKeepsBound_serve (keepsBound_unsubscribe src n) _ src tag s
  | periodExpiry n => exact nextKeepsBound (keepsBound_periodExpiry n s)
  | byteReceived link b => exact nextKeepsBound (keepsBound_ite (.refl s) (keepsBound_assemble link b s))
  | carrierPeriod => exact nextKeepsBound (.refl s)

/-! ### Notices placed (R180) -/

theorem place_silent {s : State} {link : Source} (h : link = .tablet ∧ s.linkUp = false) (b : NoticeBody) :
    s.place link b = s := if_pos h

theorem place_sends {s : State} {link : Source} (h : Sends s link) (b : NoticeBody) :
    s.place link b = s.setLink link ((s.link link).place b) := if_neg ((sends_iff s link).1 h)

/-- Settles O59: a notice placed by the room in its queue, and the bound kept by every command and by idle time. -/
theorem noticesArePlacedAndBounded : Obligations.NoticesArePlacedAndBounded := by
  unfold Obligations.NoticesArePlacedAndBounded
  refine ⟨fun s link b => ⟨fun silent => place_silent silent b, fun sends => ⟨fun room => ?_, fun full => ?_⟩, rfl,
    fun _ => rfl⟩, fun s t inv run => ?_⟩
  · rw [place_sends sends, LinkUnit.place, if_pos room]
  · rw [place_sends sends, LinkUnit.place, if_neg (Nat.not_lt.2 full)]
  · unfold step at run
    split at run
    · cases run
      exact (keepsBound_idle s).noticeInv inv
    · next c rest _ =>
      obtain ⟨u, next, keeps⟩ := exec_keepsBound c { s with pending := rest }
      cases next.symm.trans run
      exact keeps.noticeInv inv

end Sys2Proof.Machine

namespace Sys2Proof.Machine

open Sys2Proof.Safety

/-! ### Folds over the records of a bank -/

/-- A fold whose turn at `i` changes record `i` alone: each record of the list is changed once, by its own turn. -/
theorem foldl_pointwise {σ ι β : Type} [DecidableEq ι] {get : σ → ι → β} {f : σ → ι → σ} {g : ι → β → β}
    (turn : ∀ t i j, get (f t i) j = if i = j then g i (get t i) else get t j) {xs : List ι} (nodup : xs.Nodup)
    (s : σ) (j : ι) : get (xs.foldl f s) j = if j ∈ xs then g j (get s j) else get s j := by
  induction xs generalizing s with
  | nil => rfl
  | cons i rest ih =>
    obtain ⟨fresh, nodup⟩ := List.nodup_cons.1 nodup
    rw [List.foldl_cons, ih nodup, turn]
    by_cases e : i = j
    · subst e; simp [fresh]
    · simp [e, Ne.symm e]

/-- A fold of turns that are quiet but for the owner records is so too. -/
theorem quiet_withClaims_foldl {α : Type} {f : State → α → State} (h : ∀ t a, Quiet t (withClaims (f t a) t))
    (xs : List α) (s : State) : Quiet s (withClaims (xs.foldl f s) s) := by
  induction xs generalizing s with
  | nil => exact Quiet.refl s
  | cons a rest ih => exact quiet_withClaims_trans (h s a) (ih _)

/-! ### Claims that end (R161) -/

/-- R161: the end of the claim of `src`. -/
theorem endClaim_owned {r : Resource} {u : State} {src : Source} (own : u.owner r = some src) (reason : ClaimEndReason)
    (new : Claim) :
    endClaim r reason new u =
      react (.claimEnd r reason)
        (((claimStop r reason u).setClaim r new).placeBoth
          (.claimEnd r reason (some src) new.owner (claimStop r reason u).time)) := by
  unfold endClaim
  dsimp only
  rw [own, State.setClaim_time]

theorem quiet_withClaims_ite {p : Prop} [Decidable p] {s a b : State} (h : Quiet s (withClaims a s))
    (k : Quiet s (withClaims b s)) : Quiet s (withClaims (if p then a else b) s) := by
  split
  · exact h
  · exact k

/-- The end of the claims of `src`, one resource after the other. -/
def endClaimsOf (src : Source) (reason : ClaimEndReason) (u : State) (r : Resource) : State :=
  if u.owner r = some src then endClaim r reason Claim.none u else u

theorem claim_endClaimsOf (src : Source) (reason : ClaimEndReason) (u : State) (r q : Resource) :
    (endClaimsOf src reason u r).claim q =
      if r = q then (if (u.claim r).owner = some src then ⟨none, none⟩ else u.claim r) else u.claim q := by
  unfold endClaimsOf State.owner
  split
  · rw [claim_endClaim]; rfl
  · split
    · next e => rw [e]
    · rfl

/-- R161: the claims of `src` end, and the other records stay. -/
theorem claim_foldl_endClaimsOf (src : Source) (reason : ClaimEndReason) {xs : List Resource} (nodup : xs.Nodup)
    (s : State) (r : Resource) :
    (xs.foldl (endClaimsOf src reason) s).claim r =
      if r ∈ xs ∧ s.owner r = some src then ⟨none, none⟩ else s.claim r := by
  rw [foldl_pointwise (get := State.claim) (g := fun _ c => if c.owner = some src then ⟨none, none⟩ else c)
    (claim_endClaimsOf src reason) nodup, ite_and]
  rfl

theorem quiet_endClaimsOf (src : Source) (reason : ClaimEndReason) (u : State) (r : Resource) :
    Quiet u (withClaims (endClaimsOf src reason u r) u) :=
  quiet_withClaims_ite (quiet_endClaim r reason _ u) (Quiet.refl u)

/-! ### Sets of resources (R160, R162 to R164) -/

theorem inOrder_eq (set : List Resource) : inOrder set = allResources.filter fun r => decide (r ∈ set) := by
  simp [inOrder]

theorem inOrder_eq_nil (set : List Resource) : inOrder set = [] ↔ set = [] := by
  simp [List.eq_nil_iff_forall_not_mem, mem_inOrder]

theorem claimTable_reserved (s : State) (src : Source) (i : Fin 8) (kind tag : Byte) :
    claimTable (reserved s src i kind tag) = claimTable s := claimTable_setLink s src _

theorem mem_notOwned (src : Source) (set : List Resource) (s : State) (r : Resource) :
    r ∈ notOwned src (inOrder set) s ↔ r ∈ set ∧ s.owner r ≠ some src := by
  simp [notOwned, mem_inOrder]

/-- R159: an empty set is refused, with the claim table beside it. -/
theorem serve_emptySet {s : State} {src : Source} {i : Fin 8} (h : Accepts s src i) {k : RequestKind}
    (permitted : RequestKind.programOnly k = true → src = .program) (tag : Byte) {act : State → State × Reply}
    (e : ∀ t, act t = (t, claimReply .badValue false [] t)) :
    serve k src tag act s =
      answered s src i (RequestKind.code k) tag ⟨.badValue, false, .claims (claimTable s) []⟩ := by
  refine serve_answered h k tag permitted ((e _).trans ?_)
  rw [claimReply, claimTable_reserved]

theorem releaseRequest_nil {set : List Resource} (empty : set = []) (src : Source) (t : State) :
    releaseRequest src set t = (t, claimReply .badValue false [] t) := if_pos ((inOrder_eq_nil set).2 empty)

theorem renewRequest_nil {set : List Resource} (empty : set = []) (src : Source) (t : State) :
    renewRequest src set t = (t, claimReply .badValue false [] t) := if_pos ((inOrder_eq_nil set).2 empty)

theorem takeRequest_nil {f : ClaimFields} (empty : f.set = []) (t : State) :
    takeRequest f t = (t, claimReply .badValue false [] t) := if_pos ((inOrder_eq_nil f.set).2 empty)

theorem releaseRequest_set {set : List Resource} (full : set ≠ []) (src : Source) (t : State) :
    releaseRequest src set t =
      ((inOrder set).foldl (endClaimsOf src .released) t,
        claimReply .ok false (notOwned src (inOrder set) t) ((inOrder set).foldl (endClaimsOf src .released) t)) :=
  if_neg fun e => full ((inOrder_eq_nil set).1 e)

/-- R163: the lease of a claim of `src` restarted. -/
def renewClaimsOf (src : Source) (u : State) (r : Resource) : State :=
  if u.owner r = some src then u.restartLease r else u

theorem renewRequest_set {set : List Resource} (full : set ≠ []) (src : Source) (t : State) :
    renewRequest src set t =
      ((inOrder set).foldl (renewClaimsOf src) t,
        claimReply .ok false (notOwned src (inOrder set) t) ((inOrder set).foldl (renewClaimsOf src) t)) :=
  if_neg fun e => full ((inOrder_eq_nil set).1 e)

theorem claim_renewClaimsOf (src : Source) (u : State) (r q : Resource) :
    (renewClaimsOf src u r).claim q =
      if r = q then (if (u.claim r).owner = some src then Claim.restarted (u.claim r) else u.claim r)
      else u.claim q := by
  unfold renewClaimsOf State.owner State.restartLease
  split
  · rw [State.claim_setClaim]
  · split
    · next e => rw [e]
    · rfl

theorem claim_foldl_renewClaimsOf (src : Source) {xs : List Resource} (nodup : xs.Nodup) (s : State) (r : Resource) :
    (xs.foldl (renewClaimsOf src) s).claim r =
      if r ∈ xs ∧ s.owner r = some src then Claim.restarted (s.claim r) else s.claim r := by
  rw [foldl_pointwise (get := State.claim) (g := fun _ c => if c.owner = some src then Claim.restarted c else c)
    (claim_renewClaimsOf src) nodup, ite_and]
  rfl

theorem withClaims_renewClaimsOf (src : Source) (u s : State) (r : Resource) :
    withClaims (renewClaimsOf src u r) s = withClaims u s := by
  unfold renewClaimsOf State.restartLease
  split
  · exact withClaims_setClaim u s r _
  · rfl

theorem withClaims_foldl_renewClaimsOf (src : Source) (xs : List Resource) (s : State) :
    withClaims (xs.foldl (renewClaimsOf src) s) s = s :=
  List.foldlRecOn xs (renewClaimsOf src) (motive := fun t => withClaims t s = s) rfl
    fun t same r _ => (withClaims_renewClaimsOf src t s r).trans same

/-- R163, R178: a renewal and the reservation of a slot commute. -/
theorem renewClaimsOf_reserved (s : State) (src a : Source) (i : Fin 8) (kind tag : Byte) (r : Resource) :
    renewClaimsOf src (reserved s a i kind tag) r = reserved (renewClaimsOf src s r) a i kind tag := by
  unfold renewClaimsOf
  rw [reserved_owner, reserved_restartLease]
  split <;> rfl

theorem foldl_renewClaimsOf_reserved (s : State) (src a : Source) (i : Fin 8) (kind tag : Byte) (xs : List Resource) :
    xs.foldl (renewClaimsOf src) (reserved s a i kind tag) =
      reserved (xs.foldl (renewClaimsOf src) s) a i kind tag :=
  List.foldl_hom (fun t => reserved t a i kind tag) fun t r => renewClaimsOf_reserved t src a i kind tag r

/-- Settles O16: RELEASE and RENEW, by whether the set is empty. -/
theorem releaseAndRenew : Obligations.ReleaseAndRenew := by
  unfold Obligations.ReleaseAndRenew
  refine ⟨fun s src i tag set h => ⟨fun empty => ?_, fun full => ?_⟩,
    fun s src i tag set h => ⟨fun empty => ?_, fun full => ?_⟩⟩
  · exact next_congr (serve_emptySet (k := .release) h nofun tag (releaseRequest_nil empty src))
  · have served := serve_accepted h .release tag (releaseRequest src set) nofun
    rw [releaseRequest_set full] at served
    refine ⟨_, _, next_congr served, fun r => ?_, fun r => ?_, ?_, ?_⟩
    · rw [mem_notOwned, reserved_owner]
    · simp only [claim_foldl_endClaimsOf src .released (nodup_inOrder set), mem_inOrder, reserved_owner,
        reserved_claim]
    · rw [inOrder_eq]
      refine List.foldl_ext _ _ _ fun u r _ => ite_congr rfl (fun own => ?_) fun _ => rfl
      rw [endClaim_owned own]
      cases r <;> rfl
    · have quiet := quiet_withClaims_foldl (quiet_endClaimsOf src .released) (inOrder set)
        (reserved s src i (RequestKind.code .release) tag)
      cases src <;> exact quiet
  · exact next_congr (serve_emptySet (k := .renew) h nofun tag (renewRequest_nil empty src))
  · refine ⟨(inOrder set).foldl (renewClaimsOf src) s, notOwned src (inOrder set) s,
      next_congr (serve_answered h .renew tag nofun ?_), mem_notOwned src set s, fun r => ?_,
      withClaims_foldl_renewClaimsOf src _ s⟩
    · rw [renewRequest_set full, foldl_renewClaimsOf_reserved, claimReply, claimTable_reserved]
      simp [notOwned]
    · simp only [claim_foldl_renewClaimsOf src (nodup_inOrder set), mem_inOrder]
      rfl

/-! ### TAKE (R164) -/

theorem takeRequest_set {f : ClaimFields} (full : f.set ≠ []) (t : State) :
    takeRequest f t =
      ((inOrder f.set).foldl (takeOne (clampLease .program f.lease)) t,
        claimReply .ok (leaseClamped .program f.lease) ((inOrder f.set).filter fun r => t.owner r = some .tablet)
          ((inOrder f.set).foldl (takeOne (clampLease .program f.lease)) t)) :=
  if_neg fun e => full ((inOrder_eq_nil f.set).1 e)

theorem claim_takeOne (lease : Option Lease) (u : State) (r q : Resource) :
    (takeOne lease u r).claim q = if r = q then ⟨some .program, lease⟩ else u.claim q := by
  unfold takeOne
  split
  · rw [claim_endClaim]
  · rw [State.claim_setClaim]

theorem claim_foldl_takeOne (lease : Option Lease) {xs : List Resource} (nodup : xs.Nodup) (s : State)
    (r : Resource) : (xs.foldl (takeOne lease) s).claim r = if r ∈ xs then ⟨some .program, lease⟩ else s.claim r :=
  foldl_pointwise (get := State.claim) (g := fun _ _ => ⟨some .program, lease⟩) (claim_takeOne lease) nodup s r

theorem quiet_takeOne (lease : Option Lease) (u : State) (r : Resource) :
    Quiet u (withClaims (takeOne lease u r) u) := by
  refine quiet_withClaims_ite (quiet_endClaim r .taken _ u) ?_
  rw [withClaims_setClaim]
  exact Quiet.refl u

/-- Settles O17: TAKE, by whether the set is empty. -/
theorem takeMovesOwnership : Obligations.TakeMovesOwnership := by
  unfold Obligations.TakeMovesOwnership
  refine fun s i tag f h => ⟨fun empty => ?_, fun full => ?_⟩
  · exact next_congr (serve_emptySet (k := .take) h (fun _ => rfl) tag (takeRequest_nil empty))
  · have served := serve_accepted h .take tag (takeRequest f) fun _ => rfl
    rw [takeRequest_set full] at served
    refine ⟨_, _, next_congr served, fun r => ?_, fun r => ?_, ?_, ?_⟩
    · simp [mem_inOrder]
    · simp only [claim_foldl_takeOne _ (nodup_inOrder f.set), mem_inOrder, reserved_claim]
    · rw [inOrder_eq]
      refine List.foldl_ext _ _ _ fun u r _ => ite_congr rfl (fun own => ?_) fun _ => rfl
      rw [endClaim_owned own]
      cases r <;> rfl
    · exact quiet_withClaims_foldl (quiet_takeOne _) (inOrder f.set)
        (reserved s .program i (RequestKind.code .take) tag)

end Sys2Proof.Machine

namespace Sys2Proof.Machine

open Sys2Proof.Safety

/-! ### The entries, subscriptions and page reads of TABLET (R91, R134, R166, R168) -/

/-- R134: the turn of one entry: the watch and the reaction of TABLET there are removed. -/
def dropEntry (u : State) (n : EntryId) : State :=
  let t := if (u.watch n).map Watch.creator = some .tablet then u.setWatch n none else u
  if (t.reaction n).map Reaction.creator = some .tablet then t.setReaction n none else t

/-- R168: the turn of one subscription. -/
def dropSub (u : State) (n : SubId) : State :=
  if (u.sub n).map Subscription.link = some .tablet then u.setSub n none else u

/-- R91: the turn of one chain. -/
def dropReads (u : State) (p : PortId) : State := u.modChain p Chain.dropTabletReads

theorem watch_dropEntry (u : State) (i j : EntryId) :
    (dropEntry u i).watch j =
      if i = j then (if (u.watch i).map Watch.creator = some .tablet then none else u.watch i) else u.watch j := by
  have reactions (t : State) : (if (t.reaction i).map Reaction.creator = some .tablet then t.setReaction i none
      else t).watch j = t.watch j := by
    split <;> rfl
  refine (reactions _).trans ?_
  by_cases own : (u.watch i).map Watch.creator = some .tablet
  · rw [if_pos own, if_pos own, State.watch_setWatch]
  · rw [if_neg own, if_neg own]
    split
    · next e => rw [e]
    · rfl

theorem reaction_dropEntry (u : State) (i j : EntryId) :
    (dropEntry u i).reaction j =
      if i = j then (if (u.reaction i).map Reaction.creator = some .tablet then none else u.reaction i)
      else u.reaction j := by
  have watches : ∀ k, (if (u.watch i).map Watch.creator = some .tablet then u.setWatch i none
      else u).reaction k = u.reaction k := by
    intro k; split <;> rfl
  unfold dropEntry
  dsimp only
  rw [watches]
  by_cases own : (u.reaction i).map Reaction.creator = some .tablet
  · rw [if_pos own, if_pos own, State.reaction_setReaction, watches]
  · rw [if_neg own, if_neg own, watches]
    split
    · next e => rw [e]
    · rfl

theorem sub_dropSub (u : State) (i j : SubId) :
    (dropSub u i).sub j =
      if i = j then (if (u.sub i).map Subscription.link = some .tablet then none else u.sub i) else u.sub j := by
  unfold dropSub
  split
  · rw [State.sub_setSub]
  · split
    · next e => rw [e]
    · rfl

theorem chain_dropReads (u : State) (i j : PortId) :
    (dropReads u i).chain j = if i = j then (u.chain i).dropTabletReads else u.chain j :=
  State.chain_setChain u i j _

/-- The state but for its watches, reactions, subscriptions and chains. -/
def SameBesideTables (s t : State) : Prop :=
  t = { s with watches := t.watches, reactions := t.reactions, subs := t.subs, chains := t.chains }

theorem SameBesideTables.trans {a b c : State} (h : SameBesideTables a b) (k : SameBesideTables b c) :
    SameBesideTables a c := by
  unfold SameBesideTables at *
  rw [k, h]

theorem sameBesideTables_foldl {α : Type} {f : State → α → State} (h : ∀ t a, SameBesideTables t (f t a))
    (xs : List α) (s : State) : SameBesideTables s (xs.foldl f s) :=
  List.foldlRecOn xs f (motive := SameBesideTables s) rfl fun t same a _ => same.trans (h t a)

theorem sameBesideTables_dropEntry (u : State) (n : EntryId) : SameBesideTables u (dropEntry u n) := by
  unfold dropEntry
  dsimp only
  split <;> split <;> rfl

theorem sameBesideTables_dropSub (u : State) (n : SubId) : SameBesideTables u (dropSub u n) := by
  unfold dropSub
  split <;> rfl

/-- R166 step 1, R182: the state at the fall of LINK_UP, before the claims of TABLET end. -/
def tabletDropped (s : State) : State :=
  allPorts.foldl dropReads (allSubs.foldl dropSub (allEntries.foldl dropEntry (stopTablet s)))

theorem linkUpFall_eq (s : State) :
    linkUpFall s =
      { allResources.foldl (endClaimsOf .tablet .linkDown) (tabletDropped s) with
        tablet := LinkUnit.reset (allResources.foldl (endClaimsOf .tablet .linkDown) (tabletDropped s)).tablet } := rfl

theorem sameBesideTables_tabletDropped (s : State) : SameBesideTables (stopTablet s) (tabletDropped s) :=
  ((sameBesideTables_foldl sameBesideTables_dropEntry _ _).trans
    (sameBesideTables_foldl sameBesideTables_dropSub _ _)).trans
      (sameBesideTables_foldl (f := dropReads) (fun _ _ => rfl) _ _)

/-- A fold of turns that leave a part of the state alone leaves it alone. -/
theorem foldl_keeps {σ α β : Type} {get : σ → β} {f : σ → α → σ} (h : ∀ t a, get (f t a) = get t) (xs : List α)
    (s : σ) : get (xs.foldl f s) = get s :=
  List.foldlRecOn xs f (motive := fun t => get t = get s) rfl fun t same a _ => (h t a).trans same

theorem mem_allEntries (n : EntryId) : n ∈ allEntries := by revert n; decide
theorem mem_allSubs (n : SubId) : n ∈ allSubs := by revert n; decide
theorem mem_allPorts (p : PortId) : p ∈ allPorts := by revert p; decide
theorem nodup_allEntries : allEntries.Nodup := by decide
theorem nodup_allSubs : allSubs.Nodup := by decide
theorem nodup_allPorts : allPorts.Nodup := by decide

theorem dropSub_keeps (u : State) (n : SubId) :
    (dropSub u n).watches = u.watches ∧ (dropSub u n).reactions = u.reactions ∧ (dropSub u n).chains = u.chains := by
  unfold dropSub
  split <;> exact ⟨rfl, rfl, rfl⟩

theorem dropEntry_keeps (u : State) (n : EntryId) :
    (dropEntry u n).subs = u.subs ∧ (dropEntry u n).chains = u.chains := by
  unfold dropEntry
  dsimp only
  split <;> split <;> exact ⟨rfl, rfl⟩

theorem watch_tabletDropped (s : State) (n : EntryId) :
    (tabletDropped s).watch n = if (s.watch n).map Watch.creator = some .tablet then none else s.watch n := by
  have later : (tabletDropped s).watches = (allEntries.foldl dropEntry (stopTablet s)).watches :=
    (foldl_keeps (get := State.watches) (f := dropReads) (fun _ _ => rfl) _ _).trans
      (foldl_keeps (get := State.watches) (fun t a => (dropSub_keeps t a).1) _ _)
  unfold State.watch
  rw [later]
  exact (foldl_pointwise (get := State.watch)
    (g := fun _ x => if x.map Watch.creator = some .tablet then none else x) watch_dropEntry nodup_allEntries
    (stopTablet s) n).trans (if_pos (mem_allEntries n))

theorem reaction_tabletDropped (s : State) (n : EntryId) :
    (tabletDropped s).reaction n =
      if (s.reaction n).map Reaction.creator = some .tablet then none else s.reaction n := by
  have later : (tabletDropped s).reactions = (allEntries.foldl dropEntry (stopTablet s)).reactions :=
    (foldl_keeps (get := State.reactions) (f := dropReads) (fun _ _ => rfl) _ _).trans
      (foldl_keeps (get := State.reactions) (fun t a => (dropSub_keeps t a).2.1) _ _)
  unfold State.reaction
  rw [later]
  exact (foldl_pointwise (get := State.reaction)
    (g := fun _ x => if x.map Reaction.creator = some .tablet then none else x) reaction_dropEntry nodup_allEntries
    (stopTablet s) n).trans (if_pos (mem_allEntries n))

theorem sub_tabletDropped (s : State) (n : SubId) :
    (tabletDropped s).sub n = if (s.sub n).map Subscription.link = some .tablet then none else s.sub n := by
  have before (k : SubId) : (allEntries.foldl dropEntry (stopTablet s)).sub k = s.sub k :=
    foldl_keeps (get := (State.sub · k)) (fun t a => by unfold State.sub; rw [(dropEntry_keeps t a).1]) _ _
  have later : (tabletDropped s).subs = (allSubs.foldl dropSub (allEntries.foldl dropEntry (stopTablet s))).subs :=
    foldl_keeps (get := State.subs) (f := dropReads) (fun _ _ => rfl) _ _
  unfold State.sub
  rw [later]
  refine (foldl_pointwise (get := State.sub)
    (g := fun _ x => if x.map Subscription.link = some .tablet then none else x) sub_dropSub nodup_allSubs
    _ n).trans ((if_pos (mem_allSubs n)).trans ?_)
  rw [before]
  rfl

theorem chain_tabletDropped (s : State) (p : PortId) :
    (tabletDropped s).chain p = (s.chain p).dropTabletReads := by
  have before : (allSubs.foldl dropSub (allEntries.foldl dropEntry (stopTablet s))).chains = s.chains :=
    (foldl_keeps (get := State.chains) (fun t a => (dropSub_keeps t a).2.2) _ _).trans
      (foldl_keeps (get := State.chains) (fun t a => (dropEntry_keeps t a).2) _ _)
  refine (foldl_pointwise (get := State.chain) (g := fun _ => Chain.dropTabletReads) chain_dropReads nodup_allPorts
    _ p).trans ((if_pos (mem_allPorts p)).trans ?_)
  unfold State.chain
  rw [before]

/-- R182: the rise of LINK_UP places STARTED on an empty queue. -/
theorem linkUpRise_eq (s : State) :
    linkUpRise s =
      { s with
        linkUp := true
        tablet := { LinkUnit.reset s.tablet with notices := [⟨false, .started .linkUp s.time⟩] } } := rfl

/-- R182: what a fall of LINK_UP leaves of the tablet link unit depends on its pin and its draws alone. -/
theorem LinkUnit.reset_congr {a b : LinkUnit} (readyIn : a.readyIn = b.readyIn) (draws : a.draws = b.draws) :
    LinkUnit.reset a = LinkUnit.reset b := by
  unfold LinkUnit.reset
  rw [readyIn, draws]

/-- Settles O7: the two edges of LINK_UP, at each level. -/
theorem linkUpStartsAndDropsTablet : Obligations.LinkUpStartsAndDropsTablet := by
  unfold Obligations.LinkUpStartsAndDropsTablet
  refine ⟨fun s => ⟨fun low => ?_, fun high => ?_⟩, fun s high => ?_⟩
  · exact next_congr ((if_neg (by rw [low]; decide)).trans (linkUpRise_eq s))
  · exact next_congr (if_pos high)
  · have same := sameBesideTables_tabletDropped s
    have watch := watch_tabletDropped s
    have reaction := reaction_tabletDropped s
    have sub := sub_tabletDropped s
    have chain := chain_tabletDropped s
    have quiet := quiet_withClaims_foldl (quiet_endClaimsOf .tablet .linkDown) allResources (tabletDropped s)
    have claims := claim_foldl_endClaimsOf .tablet .linkDown nodup_allResources (tabletDropped s)
    have owner (r : Resource) : (tabletDropped s).owner r = s.owner r := by rw [same]; cases r <;> rfl
    have claim (r : Resource) : (tabletDropped s).claim r = s.claim r := by rw [same]; cases r <;> rfl
    refine ⟨linkUpFall s, next_congr (if_pos high), ?_⟩
    rw [linkUpFall_eq]
    generalize tabletDropped s = d at *
    obtain ⟨torn, turns⟩ : ∃ torn, torn = allResources.foldl (endClaimsOf .tablet .linkDown) d := ⟨_, rfl⟩
    rw [← turns] at quiet claims ⊢
    have watches : torn.watches = d.watches := quiet.watches
    have subs : torn.subs = d.subs := quiet.subs
    have chains : torn.chains = d.chains := quiet.allChains
    have program := quiet.links .program
    refine ⟨?_, ?_, fun r => ?_, fun n => ?_, fun n => ?_, fun n => ?_, fun p => ?_, ⟨d, ?_, ?_, ?_⟩, ?_⟩
    · exact quiet.linkUp.trans (by rw [same]; rfl)
    · exact LinkUnit.reset_congr ((quiet.readyIn .tablet).trans (by rw [same]; rfl))
        ((quiet.draws .tablet).trans (by rw [same]; rfl))
    · refine Eq.trans (by cases r <;> rfl) ((claims r).trans ?_)
      simp [mem_allResources, owner, claim]
    · exact (congrArg (·[n]) watches).trans (watch n)
    · refine (quiet.reactions n).trans ?_
      rw [reaction]
      split <;> rfl
    · exact (congrArg (·[n]) subs).trans (sub n)
    · intro c tabletRead flying others kept room
      have reads : tabletRead = isTabletRead := by
        funext op
        rcases op with ⟨_, _, _ | _, _, ⟨_ | _, _⟩ | _ | _⟩ <;> rfl
      have carries : flying = headInFlight c := by
        unfold headInFlight
        dsimp only [flying]
        rcases c.inFlight with _ | _ | _ | _ | _ | _ | _ | _ <;> rfl
      clear_value tabletRead flying
      subst reads carries
      refine ((congrArg (·[p]) chains).trans (chain p)).trans ?_
      dsimp only [kept, room, others]
      unfold Chain.dropTabletReads Chain.refill
      cases q : c.queue <;> rfl
    · refine congrArg (fun u : State => { u with tablet := LinkUnit.reset u.tablet }) (turns.trans ?_)
      refine List.foldl_ext _ _ _ fun u r _ => ite_congr rfl (fun own => ?_) fun _ => rfl
      rw [endClaim_owned own]
      cases r <;> rfl
    · exact reaction
    · refine Eq.trans same ?_
      dsimp only
      rw [watches, subs, chains]
      rfl
    · refine ⟨quiet.time.trans ?_, quiet.channels.trans ?_, quiet.copy.trans ?_, quiet.store.trans ?_,
        quiet.windows.trans ?_, quiet.cues.trans ?_, quiet.master.trans ?_, quiet.aout.trans ?_,
        quiet.encoder.trans ?_, quiet.pwm.trans ?_, (quiet.slots .program).trans ?_,
        (congrArg LinkUnit.waiting program).trans ?_, (quiet.rx .program).trans ?_, (quiet.tx .program).trans ?_⟩
      all_goals rw [same]; rfl

end Sys2Proof.Machine

namespace Sys2Proof.Machine

open Sys2Proof.Safety

/-! ### Segments offered (R20, Table 2-1) -/

theorem clampNat_eq {lo hi : Nat} (h : lo ≤ hi) (x : Nat) : clampNat lo hi x = max lo (min hi x) := by
  unfold clampNat
  rw [clampInt_eq (by omega)]
  omega

theorem outOfRange_iff (lo hi x : Int) : outOfRange lo hi x = true ↔ x < lo ∨ hi < x := by
  simp [outOfRange]

theorem index_eq_none {k n : Nat} : index k n = none ↔ k ≤ n := by
  simp [index]

/-- R20: a segment offered is refused: the checks of Table 2-1. -/
def SegmentRefused (r : RawSegment) : Prop :=
  let travel := r.kind = .known .move ∨ r.kind = .known .goto
  r.kind = .outside ∨ r.endAction = .outside ∨ r.otherPresence = true ∨ r.accel = 0 ∨ r.decel = 0 ∨
    (r.kind = .known .move ∧ ¬∃ d, r.target = some d ∧ -10000000 ≤ d ∧ d ≤ 10000000) ∨
    (r.kind = .known .goto ∧ ¬∃ d, r.target = some d ∧ -1000000000 ≤ d ∧ d ≤ 1000000000) ∨
    (¬travel ∧ r.target ≠ none) ∨ (travel ∧ r.duration ≠ none) ∨ r.condition = .outside ∨
    ∃ ch idx side x, r.condition = .channel ch idx side x ∧ (16 ≤ ch ∨ 8 ≤ idx ∨ side = .outside)

theorem checkCondition_eq_none (c : RawCondition) :
    checkCondition c = none ↔
      c = .outside ∨ ∃ ch idx side x, c = .channel ch idx side x ∧ (16 ≤ ch ∨ 8 ≤ idx ∨ side = .outside) := by
  cases c with
  | none => simp [checkCondition]
  | stall => simp [checkCondition]
  | outside => simp [checkCondition]
  | channel ch idx side x =>
    by_cases h : 16 ≤ ch
    · simp [checkCondition, index_eq_none.2 h, h]
    by_cases k : 8 ≤ idx
    · simp [checkCondition, index_eq_none.2 k, k]
    cases side <;> simp [checkCondition, Coded.get?, index, Nat.not_le.1 h, Nat.not_le.1 k]

/-- R20: the condition of a segment that passes, its threshold in range, and whether it was clamped. -/
theorem checkCondition_some {c : RawCondition} {k : Condition} {clamped : Bool}
    (h : checkCondition c = some (k, clamped)) :
    (c = .none → k = .none) ∧ (c = .stall → k = .stall) ∧
    (∀ (ch : ChannelId) (idx : Fin 8) side x, c = .channel ch.val idx.val (.known side) x →
      k = .channel ch idx side (max (-1000000000) (min 1000000000 x))) ∧
    (clamped = true ↔ ∃ ch idx side x, c = .channel ch idx side x ∧ (x < -1000000000 ∨ 1000000000 < x)) := by
  cases c with
  | none => cases h; simp
  | stall => cases h; simp
  | outside => cases h
  | channel ch idx side x =>
    unfold checkCondition at h
    dsimp only at h
    split at h
    · next c i sd hc hi hs =>
      cases h
      refine ⟨nofun, nofun, fun ch' idx' side' x' e => ?_, ?_⟩
      · cases e
        rw [index_val] at hc hi
        cases hc; cases hi; cases hs
        rw [clampInt_eq (by decide)]
      · simp [outOfRange_iff]
    · cases h

theorem segmentTargetOk_eq_false (kind : SegKind) (target : Option Int) :
    segmentTargetOk kind target = false ↔
      (kind = .move ∧ ¬∃ d, target = some d ∧ -10000000 ≤ d ∧ d ≤ 10000000) ∨
      (kind = .goto ∧ ¬∃ d, target = some d ∧ -1000000000 ≤ d ∧ d ≤ 1000000000) ∨
      (¬(kind = .move ∨ kind = .goto) ∧ target ≠ none) := by
  cases kind <;> cases target <;> simp [segmentTargetOk]

theorem segmentDurationOk_eq_false (kind : SegKind) (duration : Option Nat) :
    segmentDurationOk kind duration = false ↔ (kind = .move ∨ kind = .goto) ∧ duration ≠ none := by
  cases kind <;> cases duration <;> simp [segmentDurationOk]

/-- R20: the fields of a segment of kind `kind` that give BAD_VALUE. -/
def fieldsRefused (kind : SegKind) (r : RawSegment) : Bool :=
  r.otherPresence || !segmentTargetOk kind r.target || r.accel = 0 || r.decel = 0 ||
    !segmentDurationOk kind r.duration

/-- R20: the record of a segment that passes its checks. -/
def checkedSegment (kind : SegKind) (e : EndAction) (c : Condition) (r : RawSegment) : Segment :=
  { kind, target := r.target, speed := segmentSpeed kind r.speed, accel := segmentRate kind r.accel,
    decel := segmentRate kind r.decel, duration := r.duration.map fun d => clampNat 1 3600000 d, condition := c,
    endAction := e, tag := r.tag }

/-- R20: whether a field of a segment that passes its checks was clamped, beside its condition. -/
def fieldsClamped (seg : Segment) (r : RawSegment) : Bool :=
  seg.speed ≠ r.speed || seg.accel ≠ r.accel || seg.decel ≠ r.decel || seg.duration ≠ r.duration

theorem checkSegment_known {r : RawSegment} {kind : SegKind} {e : EndAction} (hk : r.kind = .known kind)
    (he : r.endAction = .known e) {c : Condition} {clamped : Bool}
    (hc : checkCondition r.condition = some (c, clamped)) :
    checkSegment r =
      if fieldsRefused kind r then none
      else some (checkedSegment kind e c r, clamped || fieldsClamped (checkedSegment kind e c r) r) := by
  unfold checkSegment
  rw [hk, he, hc]
  simp only [Coded.get?, fieldsRefused, fieldsClamped, checkedSegment, Bool.or_assoc]
  rfl

theorem checkSegment_unknown {r : RawSegment}
    (h : r.kind = .outside ∨ r.endAction = .outside ∨ checkCondition r.condition = none) : checkSegment r = none := by
  unfold checkSegment
  split
  · next hk he hc => rcases h with h | h | h <;> simp_all [Coded.get?]
  · rfl

/-- R20: a segment that passes has a kind, an end action and a condition within their enumerations. -/
theorem checkSegment_parts (r : RawSegment) :
    (r.kind = .outside ∨ r.endAction = .outside ∨ checkCondition r.condition = none) ∨
      ∃ kind e c clamped, r.kind = .known kind ∧ r.endAction = .known e ∧
        checkCondition r.condition = some (c, clamped) := by
  cases r.kind with
  | outside => exact .inl (.inl rfl)
  | known kind =>
    cases r.endAction with
    | outside => exact .inl (.inr (.inl rfl))
    | known e =>
      cases checkCondition r.condition with
      | none => exact .inl (.inr (.inr rfl))
      | some x => exact .inr ⟨kind, e, x.1, x.2, rfl, rfl, rfl⟩

theorem segmentRefused_known {r : RawSegment} {kind : SegKind} {e : EndAction} (hk : r.kind = .known kind)
    (he : r.endAction = .known e) {x : Condition × Bool} (hc : checkCondition r.condition = some x) :
    SegmentRefused r ↔ fieldsRefused kind r = true := by
  have passes := (checkCondition_eq_none r.condition).not.1 (by rw [hc]; nofun)
  obtain ⟨known, channel⟩ := not_or.1 passes
  unfold SegmentRefused fieldsRefused
  simp only [Bool.or_eq_true, Bool.not_eq_true', decide_eq_true_eq, segmentTargetOk_eq_false,
    segmentDurationOk_eq_false, hk, he, known, channel, Coded.known.injEq, reduceCtorEq, false_or, or_false]
  simp only [or_assoc, or_left_comm]

theorem checkSegment_eq_none (r : RawSegment) : checkSegment r = none ↔ SegmentRefused r := by
  rcases checkSegment_parts r with bad | ⟨kind, e, c, clamped, hk, he, hc⟩
  · refine iff_of_true (checkSegment_unknown bad) ?_
    unfold SegmentRefused
    rw [checkCondition_eq_none] at bad
    rcases bad with bad | bad | bad <;> simp only [bad, true_or, or_true]
  · rw [checkSegment_known hk he hc, segmentRefused_known hk he hc]
    split <;> simp_all

theorem checkSegment_passes {r : RawSegment} (good : ¬SegmentRefused r) :
    ∃ kind e c clamped, r.kind = .known kind ∧ r.endAction = .known e ∧
      checkCondition r.condition = some (c, clamped) ∧
      checkSegment r =
        some (checkedSegment kind e c r, clamped || fieldsClamped (checkedSegment kind e c r) r) := by
  rcases checkSegment_parts r with bad | ⟨kind, e, c, clamped, hk, he, hc⟩
  · exact absurd ((checkSegment_eq_none r).1 (checkSegment_unknown bad)) good
  · refine ⟨kind, e, c, clamped, hk, he, hc, ?_⟩
    rw [checkSegment_known hk he hc, if_neg (mt (segmentRefused_known hk he hc).2 good)]

theorem segmentRate_moving {kind : SegKind} (h : kind ≠ .hold) (x : Nat) :
    segmentRate kind x = max 100 (min 40000 x) := by
  cases kind with
  | hold => exact absurd rfl h
  | speed => exact clampNat_eq (by decide) x
  | move => exact clampNat_eq (by decide) x
  | goto => exact clampNat_eq (by decide) x

/-- Table 2-1: the cruise speed of a MOVE or GOTO keeps its sign (log 14). -/
theorem segmentSpeed_travel {kind : SegKind} (h : kind = .move ∨ kind = .goto) (x : Int) :
    segmentSpeed kind x = if x < 0 then -max 10 (min 4000 (-x)) else max 10 (min 4000 x) := by
  have cruise : segmentSpeed kind x = cruiseSpeed x := by rcases h with rfl | rfl <;> rfl
  rw [cruise, cruiseSpeed, clampInt_eq (by decide), clampInt_eq (by decide)]

theorem duration_checked (kind : SegKind) (e : EndAction) (c : Condition) (r : RawSegment) :
    (checkedSegment kind e c r).duration = r.duration.map fun d => max 1 (min 3600000 d) := by
  cases h : r.duration <;> simp [checkedSegment, h, clampNat_eq]

theorem fieldsClamped_iff (seg : Segment) (r : RawSegment) :
    fieldsClamped seg r = true ↔
      seg.speed ≠ r.speed ∨ seg.accel ≠ r.accel ∨ seg.decel ≠ r.decel ∨ seg.duration ≠ r.duration := by
  simp [fieldsClamped, or_assoc]

/-! ### SEG (R22) -/

theorem segMotor_refused {r : RawSegment} {m : MotorId} {s : State} {seg : Segment} {clamped : Bool} {st : Status}
    (good : checkSegment r = some (seg, clamped)) (refused : segmentRefusal m seg true s = some st) :
    segMotor r m s = (s, Reply.refuse st) := by
  unfold segMotor
  rw [good]
  dsimp only
  rw [refused]

/-- R21, R22: a segment that no check refuses joins the tail of the queue. -/
theorem segMotor_accepted {r : RawSegment} {m : MotorId} {s : State} {seg : Segment} {clamped : Bool}
    (good : checkSegment r = some (seg, clamped)) (free : segmentRefusal m seg true s = none) :
    segMotor r m s =
      (s.setMotor m { s.motor m with queue := (s.motor m).queue ++ [seg] },
        Reply.ok clamped (.depth ((s.motor m).queue.length + 1))) := by
  unfold segMotor
  rw [good]
  dsimp only
  rw [free]
  dsimp only
  rw [State.motor_modMotor_self]
  simp only [Motor.append, List.length_append, List.length_singleton]
  rfl

theorem segmentRefusal_fault {m : MotorId} {s : State} (h : (s.motor m).state = .fault) (seg : Segment)
    (testFull : Bool) : segmentRefusal m seg testFull s = some .faulted := if_pos h

/-- R22: a segment whose end condition names a channel without that value. -/
theorem segmentRefusal_channel {m : MotorId} {s : State} {seg : Segment} {ch : ChannelId} {idx : Fin 8} {side : Side}
    {x : Int} (e : seg.condition = .channel ch idx side x) (well : (s.motor m).state ≠ .fault) (testFull : Bool) :
    ((s.channel ch).state = .unmapped → segmentRefusal m seg testFull s = some .noSource) ∧
    ((s.channel ch).state ≠ .unmapped → (s.channel ch).valueCount ≤ idx.val →
      segmentRefusal m seg testFull s = some .badValue) := by
  unfold segmentRefusal
  simp only [e, if_neg well]
  exact ⟨fun gone => by simp [gone], fun mapped beyond => by simp [mapped, beyond]⟩

/-- R22: the channel of the end condition gives the value that the condition tests. -/
def ConditionServed (s : State) (seg : Segment) : Prop :=
  ∀ ch idx side x, seg.condition = .channel ch idx side x →
    (s.channel ch).state ≠ .unmapped ∧ idx.val < (s.channel ch).valueCount

theorem segmentRefusal_served {m : MotorId} {s : State} {seg : Segment} (well : (s.motor m).state ≠ .fault)
    (served : ConditionServed s seg) (testFull : Bool) :
    segmentRefusal m seg testFull s =
      if testFull = true ∧ 8 ≤ (s.motor m).queue.length then some .full else none := by
  unfold segmentRefusal
  simp only [if_neg well]
  cases e : seg.condition with
  | none => simp
  | stall => simp
  | channel ch idx side x =>
    obtain ⟨mapped, within⟩ := served ch idx side x e
    simp [mapped, Nat.not_le.2 within]

/-- Settles O23: SEG at its owner by the first check that fails, and the checks and clamps of Table 2-1. -/
theorem segJoinsQueue : Obligations.SegJoinsQueue := by
  unfold Obligations.SegJoinsQueue
  refine ⟨fun s src i tag m r h own => ⟨fun bad => ?_, fun seg clamped good => ?_⟩,
    fun r => ⟨(checkSegment_eq_none r).2, fun good => ?_⟩⟩
  · exact next_congr (serve_motor_refused (k := .seg) h rfl tag own (by decide) fun t _ => by simp [segMotor, bad])
  · have refused {st : Status} (bad : st ≠ .ok)
        (why : segmentRefusal m seg true (reserved s src i (RequestKind.code .seg) tag) = some st) :=
      next_congr (serve_motor_refused (k := .seg) h rfl tag own bad fun t e => segMotor_refused good (e ▸ why))
    refine ⟨fun fault => refused (by decide) (segmentRefusal_fault (by rwa [reserved_motor]) seg true),
      fun ch idx side th e well => ⟨fun gone => ?_, fun mapped beyond => ?_⟩, fun well served => ?_⟩
    · exact refused (by decide) ((segmentRefusal_channel e (by rwa [reserved_motor]) true).1
        (by rwa [reserved_channel]))
    · exact refused (by decide) ((segmentRefusal_channel e (by rwa [reserved_motor]) true).2
        (by rwa [reserved_channel]) (by rwa [reserved_channel]))
    · have decided := segmentRefusal_served (m := m) (seg := seg)
        (s := reserved s src i (RequestKind.code .seg) tag) (by rwa [reserved_motor])
        (fun ch idx side x e => by rw [reserved_channel]; exact served ch idx side x e) true
      rw [reserved_motor] at decided
      refine ⟨fun full => refused (by decide) (decided.trans (if_pos ⟨rfl, full⟩)), fun room => ?_⟩
      refine next_congr (serve_motor_accepted (k := .seg) h rfl tag own ?_)
      rw [segMotor_accepted good (decided.trans (if_neg fun full => Nat.not_le.2 room full.2)), reserved_motor,
        reserved_setMotor]
  · obtain ⟨kind, e, c, clamped, hk, he, hc, passes⟩ := checkSegment_passes good
    obtain ⟨none, stall, channel, cut⟩ := checkCondition_some hc
    have travel : r.kind = .known .move ∨ r.kind = .known .goto → kind = .move ∨ kind = .goto := by
      rw [hk]; simp
    refine ⟨_, _, passes, hk, he, rfl, rfl,
      fun moving => ⟨segmentRate_moving moving _, segmentRate_moving moving _⟩, ?_, duration_checked kind e c r, ?_,
      ?_, fun goes => segmentSpeed_travel (travel goes) _, none, stall, channel, ?_⟩
    · rintro rfl; exact ⟨rfl, rfl⟩
    · rintro rfl; exact clampInt_eq (by decide) _
    · rintro rfl; rfl
    · rw [Bool.or_eq_true, cut, fieldsClamped_iff, or_comm]
      simp only [or_assoc]

end Sys2Proof.Machine

namespace Sys2Proof.Machine

open Sys2Proof.Safety

/-! ### Duration expiries (R24, R27, R31, R32) -/

theorem durationRuns_iff (a : Active) :
    durationRuns a = true ↔
      (a.seg.kind = .speed ∨ a.seg.kind = .hold) ∧ a.seg.duration ≠ none ∧ a.phase ≠ .stopping := by
  simp [durationRuns, Option.isSome_iff_ne_none, and_assoc]

/-- The motor with the duration of its segment `a` expired. -/
def Motor.expiring (mo : Motor) (a : Active) : Motor :=
  { mo with active := some { a with elapsed := a.seg.duration.getD a.elapsed } }

theorem exec_durationExpiry_none {m : MotorId} {s : State}
    (idle : ∀ a, (s.motor m).active = some a → ¬durationRuns a = true) : exec (.durationExpiry m) s = .next s := by
  refine next_congr ?_
  unfold expireDuration
  split
  · rfl
  · next a act => exact if_neg (idle a act)

theorem exec_durationExpiry_runs {m : MotorId} {s : State} {a : Active} (act : (s.motor m).active = some a)
    (runs : durationRuns a = true) :
    exec (.durationExpiry m) s =
      .next (afterEvents (durationExpired m (s.setMotor m ((s.motor m).expiring a)))) := by
  refine next_congr ?_
  unfold expireDuration
  rw [act]
  dsimp only
  rw [if_pos runs]
  rfl

/-- R27: an expiry that ends the segment with its end action. -/
theorem durationExpired_ends {m : MotorId} {s : State} {a : Active} (act : (s.motor m).active = some a)
    (other : ¬(a.seg.kind = .speed ∧ a.seg.endAction = .blend)) :
    durationExpired m s = endByAction m .done (.here (s.motor m).sampled) (s.motor m).sampled s := by
  unfold durationExpired
  dsimp only
  rw [act]
  exact if_neg fun e => other e.symm

/-- R32: an expiry of a SPEED segment that blends. -/
theorem durationExpired_blends {m : MotorId} {s : State} {a : Active} (act : (s.motor m).active = some a)
    (speed : a.seg.kind = .speed) (blend : a.seg.endAction = .blend) :
    durationExpired m s =
      if blendTest (s.motor m) a then handover m a s
      else stoppingTest m (s.setMotor m { s.motor m with active := some { a with phase := .stopping } }) := by
  unfold durationExpired
  dsimp only
  rw [act]
  exact if_pos ⟨blend, speed⟩

/-- R32: a SPEED segment that goes on to STOPPING, its reference still moving. -/
theorem stoppingTest_moving {m : MotorId} {s : State} (moving : (s.motor m).vRef ≠ 0) : stoppingTest m s = (s, []) := by
  unfold stoppingTest
  dsimp only
  split
  · rfl
  · exact if_neg fun e => moving e.2.2

/-- R32: a SPEED segment in STOPPING whose reference speed is 0 ends. -/
theorem stoppingTest_still {m : MotorId} {s : State} {a : Active} (act : (s.motor m).active = some a)
    (speed : a.seg.kind = .speed) (stopping : a.phase = .stopping) (still : (s.motor m).vRef = 0) :
    stoppingTest m s = endByAction m .done .asStands (s.motor m).sampled s := by
  unfold stoppingTest
  dsimp only
  rw [act]
  exact if_pos ⟨speed, stopping, still⟩

/-- R29, Table 2-4: BLEND that is no handover holds at the reference as it stands. -/
theorem motor_endActionTaken_asStands {m : MotorId} {s : State} {a : Active} (blend : a.seg.endAction = .blend) :
    (endActionTaken m a .asStands s).motor m =
      { s.motor m with active := none, state := .holding, refFrac := 0, vRef := 0, accFrac := 0 } := by
  unfold endActionTaken applyEndAction
  rw [blend]
  exact (State.motor_modMotor_self _ m _).trans (by rw [State.motor_setMotor_self]; rfl)

theorem endedBy_active (e : EndAction) (pos : Word) (mo : Motor) (x : Option Active) :
    endedBy e pos { mo with active := x } = endedBy e pos mo := by
  cases e <;> rfl

section Runs

variable {m : MotorId} {s : State} {a : Active} (act : (s.motor m).active = some a)
include act

/-- R27, R32: the expiry of a duration that runs, by what it leaves. -/
theorem exec_durationExpiry_leaves (runs : durationRuns a = true) {u links : State} {es : List Event} {mo : Motor}
    (before : AtMotor m s u)
    (expired : Leaves m u links (durationExpired m (s.setMotor m ((s.motor m).expiring a))) es mo) :
    ∃ t, t = (durationExpired m (s.setMotor m ((s.motor m).expiring a))).1 ∧
      exec (.durationExpiry m) s = .next (reactAll es t) ∧ t.motor m = mo ∧
      (∀ k, k ≠ m → t.motor k = s.motor k) ∧ (∀ src, t.link src = links.link src) ∧ Quiet s t := by
  have leaves := expired.since before (.refl links)
  exact ⟨_, rfl, by rw [exec_durationExpiry_runs act runs, leaves.reactAll], leaves.motor, leaves.atMotor.motors,
    leaves.links.link, leaves.atMotor.quiet⟩

end Runs

theorem blendTest_expiring (mo : Motor) (a : Active) :
    blendTest (mo.expiring a) { a with elapsed := a.seg.duration.getD a.elapsed } = true ↔ HeadFollows mo a :=
  blendTest_iff _ _

/-- Settles O29: the expiry of a duration, by whether one runs and whether its segment blends. -/
theorem durationExpiryEndsSegment : Obligations.DurationExpiryEndsSegment := by
  unfold Obligations.DurationExpiryEndsSegment
  intro s m
  refine ⟨fun idle => exec_durationExpiry_none fun a act runs => idle a act ((durationRuns_iff a).1 runs), ?_, ?_⟩
  · intro a run act runs other
    let u := s.setMotor m ((s.motor m).expiring a)
    have self : u.motor m = (s.motor m).expiring a := State.motor_setMotor_self s m _
    have running : (u.motor m).state = .running := by rw [self]; exact run
    have actU : (u.motor m).active = some { a with elapsed := a.seg.duration.getD a.elapsed } := by rw [self]; rfl
    have ends := durationExpired_ends actU other
    have leaves := leaves_endByAction actU .done (.here (u.motor m).sampled) (u.motor m).sampled
    have same := (sameLinks_setMotor s m ((s.motor m).expiring a)).endNotice m a .done false (s.motor m).sampled 0
    rw [← ends, motor_endActionTaken running, self] at leaves
    obtain ⟨t, e, run, motor, motors, links, quiet⟩ := exec_durationExpiry_leaves act ((durationRuns_iff a).2 runs)
      (atMotor_setMotor s m _) leaves
    refine ⟨t, run, motor.trans (endedBy_active _ _ _ _), fun rests => ?_, motors,
      fun src => (links src).trans (same.link src), quiet⟩
    rw [e, ends]
    exact supply_endByAction actU running rests .done _ _
  · intro a act runs speed blend
    let u := s.setMotor m ((s.motor m).expiring a)
    have self : u.motor m = (s.motor m).expiring a := State.motor_setMotor_self s m _
    have actU : (u.motor m).active = some { a with elapsed := a.seg.duration.getD a.elapsed } := by rw [self]; rfl
    have sameU : SameLinks s u := sameLinks_setMotor s m _
    have atU : AtMotor m s u := atMotor_setMotor s m _
    have expired := durationExpired_blends actU speed blend
    rw [self] at expired
    have follows := blendTest_expiring (s.motor m) a
    have runs' := (durationRuns_iff a).2 runs
    refine ⟨fun lone moving => ?_, fun lone still => ?_, fun h rest q head => ⟨fun here => ?_, fun gone run => ?_⟩⟩
    · rw [if_neg (mt follows.1 lone), State.setMotor_setMotor, stoppingTest_moving (by
        rw [State.motor_setMotor_self]; exact moving)] at expired
      rw [exec_durationExpiry_runs act runs', expired]
      rfl
    · rw [if_neg (mt follows.1 lone), State.setMotor_setMotor] at expired
      let b : Active := { a with phase := .stopping, elapsed := a.seg.duration.getD a.elapsed }
      let v := s.setMotor m { s.motor m with active := some b }
      have selfV : v.motor m = { s.motor m with active := some b } := State.motor_setMotor_self s m _
      have actV : (v.motor m).active = some b := by rw [selfV]
      have stops := expired.trans (stoppingTest_still (s := v) actV speed rfl (by rw [selfV]; exact still))
      have leaves := leaves_endByAction actV .done .asStands (v.motor m).sampled
      have same := (sameLinks_setMotor s m { s.motor m with active := some b }).endNotice m a .done false
        (s.motor m).sampled 0
      rw [← stops, motor_endActionTaken_asStands (a := b) blend, selfV] at leaves
      obtain ⟨t, -, run, motor, motors, links, quiet⟩ := exec_durationExpiry_leaves act runs'
        (atMotor_setMotor s m _) leaves
      exact ⟨t, run, motor, motors, fun src => (links src).trans (same.link src), quiet⟩
    · rw [if_pos (follows.2 head)] at expired
      have leaves := leaves_handover (m := m) (s := u) (by rw [self]; exact q)
        { a with elapsed := a.seg.duration.getD a.elapsed } here
      rw [← expired, self] at leaves
      obtain ⟨t, -, run, motor, motors, links, quiet⟩ := exec_durationExpiry_leaves act runs' atU leaves
      exact ⟨t, run, motor, motors,
        fun src => (links src).trans ((sameU.endNotice m a .done true (s.motor m).sampled 0).link src), quiet⟩
    · rw [if_pos (follows.2 head)] at expired
      obtain ⟨events, motor, governor, motors, links⟩ := handover_gone (m := m) (s := u) (h := h) (rest := rest)
        (by rw [self]; exact q) { a with elapsed := a.seg.duration.getD a.elapsed } gone
        (by rw [self]; exact fun e => absurd (run.symm.trans e) (by decide))
      have same := (sameU.place (s.ownerLink (.motor m)) (.segmentEnd m a.seg.tag .done true (s.motor m).sampled 0
        s.time)).place (s.ownerLink (.motor m)) (.segmentEnd m h.tag .sensorLost false (s.motor m).sampled rest.length
        s.time)
      rw [self, sameU.ownerLink m, sameU.time] at links
      rw [self] at motor
      refine ⟨(handover m { a with elapsed := a.seg.duration.getD a.elapsed } u).1, ?_, motor, ?_,
        fun k o => (motors k o).trans (atU.motors k o), fun src => (links src).trans (same.link src),
        atU.quiet.trans (quiet_handover m _ u)⟩
      · rw [exec_durationExpiry_runs act runs', expired, afterEvents, events]
      · rw [governor]
        exact Governor.supply_setSupply_self _ _ _

end Sys2Proof.Machine

namespace Sys2Proof.Machine

open Sys2Proof.Safety

/-! ### Watches evaluated (R123, R124, Table 7-2) -/

/-- R123: a level watch against a value, by its state and by what its test says. -/
theorem evaluateWatch_level {w : Watch} {v : Int} {fires rearms : Prop} (level : evaluateWatch w v = evaluateLevel w v)
    (firing : firingTest w.test v = true ↔ fires) (rearm : rearmTest w.test w.hysteresis v = true ↔ rearms) :
    (w.state = .armed → fires →
      evaluateWatch w v = ({ w with fires := min 65535 (w.fires + 1), state := .tripped }, true)) ∧
    (w.state = .armed → ¬fires → evaluateWatch w v = (w, false)) ∧
    (w.state = .tripped → rearms → evaluateWatch w v = ({ w with state := .armed }, false)) ∧
    (w.state = .tripped → ¬rearms → evaluateWatch w v = (w, false)) := by
  rw [level, evaluateLevel]
  refine ⟨fun armed yes => ?_, fun armed no => ?_, fun tripped yes => ?_, fun tripped no => ?_⟩
  · rw [armed]; exact if_pos (firing.2 yes)
  · rw [armed]; exact if_neg (mt firing.1 no)
  · rw [tripped]; exact if_pos (rearm.2 yes)
  · rw [tripped]; exact if_neg (mt rearm.1 no)

theorem evaluateWatch_change {w : Watch} {delta : Int} (t : w.test = .change delta) (v : Int) :
    evaluateWatch w v = evaluateChange w delta v := by
  unfold evaluateWatch; rw [t]

theorem evaluateChange_first {w : Watch} (none : w.reference = none) (delta v : Int) :
    evaluateChange w delta v = ({ w with reference := some v }, false) := by
  unfold evaluateChange; rw [none]

theorem evaluateChange_since {w : Watch} {r : Int} (ref : w.reference = some r) (delta v : Int) :
    evaluateChange w delta v =
      if delta ≤ ((v - r).natAbs : Int) then ({ firedWatch w with reference := some v }, true) else (w, false) := by
  unfold evaluateChange; rw [ref]

/-! ### Entries of the reactions (R129 to R133) -/

theorem reactionNotice_some {s : State} {n : EntryId} {r : Reaction} (h : s.reaction n = some r)
    (outcome : ReactionOutcome) (e : Event) (depth : Nat) :
    reactionNotice n outcome e depth s =
      s.place r.creator (.reaction n outcome e depth r.fires r.skips s.time) := by
  unfold reactionNotice; rw [h]

theorem skipReaction_some {s : State} {n : EntryId} {r : Reaction} (h : s.reaction n = some r)
    (outcome : ReactionOutcome) (e : Event) (depth : Nat) :
    skipReaction n outcome e depth s =
      (s.setReaction n (some { r with skips := countUp r.skips })).place r.creator
        (.reaction n outcome e depth r.fires (countUp r.skips) s.time) := by
  unfold skipReaction
  rw [h]
  exact reactionNotice_some (State.reaction_setReaction_self s n _) outcome e depth

theorem reactionFires_iff (r : Reaction) (e : Event) :
    reactionFires r e = true ↔ r.enabled = true ∧ matchesEvent r.trigger e = true := by
  simp [reactionFires]

theorem reactionFires_eq_false (r : Reaction) (e : Event) :
    reactionFires r e = false ↔ r.enabled = false ∨ matchesEvent r.trigger e = false :=
  Bool.and_eq_false_iff

/-- R129: the record of a firing of an enabled entry. -/
theorem firedRecord_enabled {r : Reaction} (on : r.enabled = true) :
    firedRecord r = { r with fires := min 65535 (r.fires + 1), enabled := decide (r.mode ≠ .once) } := by
  simp [firedRecord, countUp, on]

/-- R129: an entry that is empty or does not fire has no turn. -/
theorem fireEntry_unmatched {s : State} {n : EntryId} {e : Event}
    (none : ∀ r, s.reaction n = some r → r.enabled = false ∨ matchesEvent r.trigger e = false)
    (emit : Event → State → State) (depth : Nat) : fireEntry emit depth e s n = s := by
  unfold fireEntry
  split
  · rfl
  · next r h => rw [(reactionFires_eq_false r e).2 (none r h)]; rfl

theorem fireEntry_fires {s : State} {n : EntryId} {r : Reaction} {e : Event} (h : s.reaction n = some r)
    (fires : reactionFires r e = true) (emit : Event → State → State) (depth : Nat) :
    fireEntry emit depth e s n = actOn emit n r e depth (s.setReaction n (some (firedRecord r))) := by
  unfold fireEntry; rw [h]; exact if_pos fires

/-- R131: an action that needs its creator to own a motor or voice. -/
theorem actOn_owned {r : Reaction} {x : Resource} (needs : actionResource r.action = some x)
    (emit : Event → State → State) (n : EntryId) (e : Event) (depth : Nat) (s : State) :
    actOn emit n r e depth s =
      if s.owner x = some r.creator then carryOut emit n r.action e depth s
      else skipReaction n .notOwner e depth s := by
  unfold actOn; rw [needs]

theorem actOn_notify {r : Reaction} {code : Byte} (a : r.action = .notify code) (emit : Event → State → State)
    (n : EntryId) (e : Event) (depth : Nat) (s : State) :
    actOn emit n r e depth s = reactionNotice n (.notify code) e depth s := by
  unfold actOn carryOut; rw [a]; rfl

/-! ### Folds over the entries -/

theorem foldl_fixed_of_mem {σ ι : Type} {f : σ → ι → σ} {s : σ} {xs : List ι} (h : ∀ a ∈ xs, f s a = s) :
    xs.foldl f s = s := by
  induction xs with
  | nil => rfl
  | cons a rest ih =>
    rw [List.foldl_cons, h a List.mem_cons_self]
    exact ih fun b hb => h b (List.mem_cons_of_mem a hb)

/-- A fold in which one member's turn alone does anything. -/
theorem foldl_single {σ ι : Type} {f : σ → ι → σ} {s : σ} {xs : List ι} {a : ι} (nodup : xs.Nodup) (mem : a ∈ xs)
    (before : ∀ b, b ≠ a → f s b = s) (after : ∀ b, b ≠ a → f (f s a) b = f s a) : xs.foldl f s = f s a := by
  obtain ⟨pre, post, rfl⟩ := List.append_of_mem mem
  rw [List.nodup_append, List.nodup_cons] at nodup
  obtain ⟨-, ⟨notPost, -⟩, apart⟩ := nodup
  rw [List.foldl_append, List.foldl_cons,
    foldl_fixed_of_mem fun b hb => before b (apart b hb a List.mem_cons_self)]
  exact foldl_fixed_of_mem fun b hb => after b fun same => notPost (same ▸ hb)

theorem react_eq_foldl (e : Event) (s : State) :
    react e s = allEntries.foldl (fireEntry (takeEvent 3) 0 e) s := rfl

/-- R129: an event that no enabled reaction matches. -/
theorem react_unmatched {e : Event} {s : State}
    (none : ∀ n r, s.reaction n = some r → r.enabled = false ∨ matchesEvent r.trigger e = false) : react e s = s :=
  (react_eq_foldl e s).trans (foldl_fixed_of_mem fun n _ => fireEntry_unmatched (none n) _ _)

/-- R129, R132, R133: the turn of an enabled NOTIFY entry that matches. -/
theorem fireEntry_notify {e : Event} {s : State} {n : EntryId} {r : Reaction} {code : Byte} (h : s.reaction n = some r)
    (notify : r.action = .notify code) (on : r.enabled = true) (hit : matchesEvent r.trigger e = true)
    (emit : Event → State → State) (depth : Nat) :
    fireEntry emit depth e s n =
      (s.setReaction n
          (some { r with fires := min 65535 (r.fires + 1), enabled := decide (r.mode ≠ .once) })).place r.creator
        (.reaction n (.notify code) e depth (min 65535 (r.fires + 1)) r.skips s.time) := by
  rw [fireEntry_fires h ((reactionFires_iff r e).2 ⟨on, hit⟩), actOn_notify notify, firedRecord_enabled on]
  exact reactionNotice_some (State.reaction_setReaction_self s n _) _ e depth

/-- R129: the firing of the one enabled reaction that matches, with a NOTIFY action. -/
theorem react_notify {e : Event} {s : State} {n : EntryId} {r : Reaction} {code : Byte} (h : s.reaction n = some r)
    (notify : r.action = .notify code) (on : r.enabled = true) (hit : matchesEvent r.trigger e = true)
    (others : ∀ k q, k ≠ n → s.reaction k = some q → q.enabled = false ∨ matchesEvent q.trigger e = false) :
    react e s =
      (s.setReaction n
          (some { r with fires := min 65535 (r.fires + 1), enabled := decide (r.mode ≠ .once) })).place r.creator
        (.reaction n (.notify code) e 0 (min 65535 (r.fires + 1)) r.skips s.time) := by
  have turn := fireEntry_notify h notify on hit (takeEvent 3) 0
  rw [react_eq_foldl, ← turn]
  refine foldl_single nodup_allEntries (mem_allEntries n) (fun k ne => fireEntry_unmatched (others k · ne) _ _)
    fun k ne => fireEntry_unmatched (fun q hq => others k q ne ?_) _ _
  rw [turn] at hq
  rwa [State.reaction, State.place_reactions, ← State.reaction, State.reaction_setReaction_ne s _ ne.symm] at hq

/-! ### Triggers (Table 7-4) -/

theorem matchesEvent_iff (trigger : Trigger) (e : Event) : matchesEvent trigger e = true ↔
    (∃ n cause, trigger = .watch n ∧ e = .watch n cause) ∨
    (∃ m reasons tag reason blended, trigger = .segmentEnd m reasons ∧ e = .segmentEnd m tag reason blended ∧
      ∀ rs, reasons = some rs → reason ∈ rs) ∨
    (∃ v reason, trigger = .voiceEnd v ∧ e = .voiceEnd v reason) ∨
    (∃ r reason, trigger = .claimEnd r ∧ e = .claimEnd r reason) ∨
    (∃ p entered st, trigger = .chainState p entered ∧ e = .chainState p st ∧ ∀ x, entered = some x → x = st) := by
  cases trigger with
  | watch n => cases e <;> simp [matchesEvent, eq_comm]
  | segmentEnd m reasons => cases e <;> cases reasons <;> simp [matchesEvent, @eq_comm _ m]
  | voiceEnd v => cases e <;> simp [matchesEvent, eq_comm]
  | claimEnd r => cases e <;> simp [matchesEvent, eq_comm]
  | chainState p entered => cases e <;> cases entered <;> simp [matchesEvent, @eq_comm _ p]

/-! ### A segment handed in by a reaction (R39) -/

theorem conditionServed_of {s : State} {seg : Segment}
    (mapped : ¬∃ ch idx side x, seg.condition = .channel ch idx side x ∧ (s.channel ch).state = .unmapped)
    (within : ¬∃ ch idx side x, seg.condition = .channel ch idx side x ∧ (s.channel ch).valueCount ≤ idx.val) :
    ConditionServed s seg := fun ch idx side x e =>
  ⟨fun gone => mapped ⟨ch, idx, side, x, e, gone⟩, Nat.lt_of_not_le fun le => within ⟨ch, idx, side, x, e, le⟩⟩

theorem handIn_refused {m : MotorId} {seg : Segment} {replace : Bool} {s : State} {st : Status}
    (h : segmentRefusal m seg (!replace) s = some st) : handIn m seg replace s = .error st := by
  unfold handIn; rw [h]

theorem handIn_append {m : MotorId} {seg : Segment} {s : State} (h : segmentRefusal m seg true s = none) :
    handIn m seg false s =
      .ok (s.setMotor m { s.motor m with queue := (s.motor m).queue ++ [seg] }, []) := by
  unfold handIn; rw [show segmentRefusal m seg (!false) s = none from h]; rfl

theorem handIn_replace {m : MotorId} {seg : Segment} {s : State} (h : segmentRefusal m seg false s = none) :
    handIn m seg true s = .ok (replaceSegment m seg s) := by
  unfold handIn; rw [show segmentRefusal m seg (!true) s = none from h]; rfl

theorem replaceSegment_none {m : MotorId} {s : State} (h : (s.motor m).active = none) (seg : Segment) :
    replaceSegment m seg s = (s.setMotor m { s.motor m with queue := [seg] }, []) := by
  unfold replaceSegment
  dsimp only
  split
  · next a act => rw [h] at act; cases act
  · rfl

theorem replaceSegment_some {m : MotorId} {s : State} {a : Active} (h : (s.motor m).active = some a) (seg : Segment) :
    replaceSegment m seg s =
      ((s.setMotor m
          { s.motor m with
            state := .holding, active := none, queue := [seg], refPos := (s.motor m).position, refFrac := 0, vRef := 0
            accFrac := 0 }).place (s.ownerLink (.motor m))
        (.segmentEnd m a.seg.tag .replaced false (s.motor m).position (s.motor m).queue.length s.time),
       [.segmentEnd m a.seg.tag .replaced false]) := by
  unfold replaceSegment; dsimp only; rw [h]; rfl

/-! ### The turn of an entry (R129 to R132) -/

/-- R131: a firing whose action is not carried out, after its record. -/
theorem skipReaction_fired {u : State} {r : Reaction} (n : EntryId) (outcome : ReactionOutcome) (e : Event)
    (depth : Nat) :
    skipReaction n outcome e depth (u.setReaction n (some r)) =
      ((u.setReaction n (some r)).setReaction n (some { r with skips := min 65535 (r.skips + 1) })).place r.creator
        (.reaction n outcome e depth r.fires (min 65535 (r.skips + 1)) u.time) :=
  skipReaction_some (State.reaction_setReaction_self u n _) outcome e depth

/-- R130: the turn of an entry for an event of depth 4. -/
theorem tooDeepEntry_some {u : State} {n : EntryId} {r : Reaction} (h : u.reaction n = some r) (depth : Nat)
    (e : Event) :
    tooDeepEntry depth e u n =
      if r.enabled && matchesEvent r.trigger e then
        (u.setReaction n (some { r with skips := min 65535 (r.skips + 1) })).place r.creator
          (.reaction n .tooDeep e depth r.fires (min 65535 (r.skips + 1)) u.time)
      else u := by
  unfold tooDeepEntry
  rw [h]
  dsimp only
  rw [skipReaction_some h]
  rfl

/-- R129, R131, R132: what an entry's action does, from the state `v` with the firing on record. -/
theorem carryOut_halt (emit : Event → State → State) (n : EntryId) (m : MotorId) (a : StopAction) (e : Event)
    (depth : Nat) (v : State) :
    carryOut emit n (.halt m a) e depth v =
      (stopAction m .halted a v).2.foldl (fun w x => emit x w) (stopAction m .halted a v).1 := rfl

theorem carryOut_segment {n : EntryId} {e : Event} {depth : Nat} {v : State} {skip : Status → State}
    (skips : ∀ st, skipReaction n (.refused st) e depth v = skip st) (emit : Event → State → State) (m : MotorId)
    (seg : Segment) (replace : Bool) :
    carryOut emit n (.segment m seg replace) e depth v =
      match handIn m seg replace v with
      | .ok y => y.2.foldl (fun w x => emit x w) y.1
      | .error st => skip st := by
  unfold carryOut
  dsimp only
  cases handIn m seg replace v with
  | ok y => rfl
  | error st => exact skips st

theorem carryOut_play (emit : Event → State → State) (n : EntryId) (x : VoiceId) (cue : CueId) (e : Event)
    (depth : Nat) (v : State) :
    carryOut emit n (.play x cue) e depth v =
      if v.cue cue = none then skipReaction n (.refused .badValue) e depth v else playVoice emit x cue v := by
  unfold carryOut
  dsimp only
  cases h : v.cue cue with
  | none => rfl
  | some c => rfl

/-- Settles O45: a watch against a value, the events of the reactions by depth, and a segment handed in. -/
theorem watchesAndReactionsFire : Obligations.WatchesAndReactionsFire := by
  unfold Obligations.WatchesAndReactionsFire
  refine ⟨fun w v x lo hi delta r => ⟨fun t => ?_, fun t => ?_, fun t => ?_, fun t => ?_, fun t none => ?_,
      fun t ref far => ?_, fun t ref near => ?_⟩,
    fun s e n r code h notify on hit others => react_notify h notify on hit others,
    fun s e none => react_unmatched none,
    matchesEvent_iff, fun e s => rfl, fun k e s => ?_, fun s m seg replace => ?_⟩
  · exact evaluateWatch_level (by unfold evaluateWatch; rw [t]) (by simp [t, firingTest]) (by simp [t, rearmTest])
  · exact evaluateWatch_level (by unfold evaluateWatch; rw [t]) (by simp [t, firingTest]) (by simp [t, rearmTest])
  · exact evaluateWatch_level (by unfold evaluateWatch; rw [t]) (by simp [t, firingTest]) (by simp [t, rearmTest])
  · exact evaluateWatch_level (by unfold evaluateWatch; rw [t]) (by simp [t, firingTest]) (by simp [t, rearmTest])
  · rw [evaluateWatch_change t, evaluateChange_first none]
  · rw [evaluateWatch_change t, evaluateChange_since ref, if_pos far]; rfl
  · rw [evaluateWatch_change t, evaluateChange_since ref, if_neg (Int.not_le.2 near)]
  · refine ⟨congrArg (allEntries.foldl · s) (funext fun u => funext fun n => ?_),
      congrArg (allEntries.foldl · s) (funext fun u => funext fun n => ?_)⟩
    · cases h : u.reaction n with
      | none => exact fireEntry_unmatched (fun r some => by rw [h] at some; cases some) _ _
      | some r =>
        by_cases fires : reactionFires r e = true
        · refine (fireEntry_fires h fires _ _).trans (Eq.trans ?_ (if_pos fires).symm)
          rw [firedRecord_enabled ((reactionFires_iff r e).1 fires).1]
          cases a : r.action with
          | halt m action =>
            exact (actOn_owned (by rw [a]; rfl) _ n e _ _).trans
              (if_congr Iff.rfl (by rw [a]; exact carryOut_halt _ n m action e _ _) (skipReaction_fired n _ e _))
          | segment m seg replace =>
            refine (actOn_owned (by rw [a]; rfl) _ n e _ _).trans (if_congr Iff.rfl ?_ (skipReaction_fired n _ e _))
            rw [a]
            exact carryOut_segment (fun st => skipReaction_fired n _ e _) _ m seg replace
          | play x cue =>
            refine (actOn_owned (by rw [a]; rfl) _ n e _ _).trans (if_congr Iff.rfl ?_ (skipReaction_fired n _ e _))
            rw [a, carryOut_play]
            exact if_congr Iff.rfl (skipReaction_fired n _ e _) rfl
          | stop x fade =>
            exact (actOn_owned (by rw [a]; rfl) _ n e _ _).trans
              (if_congr Iff.rfl (by rw [a]; rfl) (skipReaction_fired n _ e _))
          | notify code =>
            exact (actOn_notify a _ n e _ _).trans (reactionNotice_some (State.reaction_setReaction_self u n _) _ e _)
        · refine (fireEntry_unmatched (fun q hq => ?_) _ _).trans (if_neg fires).symm
          rw [h] at hq
          cases hq
          exact (reactionFires_eq_false r e).1 (Bool.eq_false_iff.2 fires)
    · cases h : u.reaction n with
      | none => unfold tooDeepEntry; rw [h]
      | some r => exact tooDeepEntry_some h 4 e
  · refine ⟨fun fault => handIn_refused (segmentRefusal_fault fault seg _),
      fun well ⟨ch, idx, side, x, e, gone⟩ => handIn_refused ((segmentRefusal_channel e well _).1 gone),
      fun well mapped ⟨ch, idx, side, x, e, beyond⟩ => handIn_refused ((segmentRefusal_channel e well _).2
        (fun gone => mapped ⟨ch, idx, side, x, e, gone⟩) beyond),
      fun ⟨well, mapped, within⟩ append => ?_, fun ⟨well, mapped, within⟩ replaces => ?_⟩
    · have decided := segmentRefusal_served (m := m) well (conditionServed_of mapped within) true
      subst append
      exact ⟨fun full => handIn_refused (decided.trans (if_pos ⟨rfl, full⟩)),
        fun room => handIn_append (decided.trans (if_neg fun full => Nat.not_le.2 room full.2))⟩
    · have decided := segmentRefusal_served (m := m) well (conditionServed_of mapped within) false
      have free : segmentRefusal m seg false s = none := decided.trans (if_neg nofun)
      subst replaces
      rw [handIn_replace free]
      exact ⟨fun idle => congrArg _ (replaceSegment_none idle seg),
        fun a act => congrArg _ (replaceSegment_some act seg)⟩

end Sys2Proof.Machine

namespace Sys2Proof.Machine

open Sys2Proof.Safety

/-! ### MAP_CLEAR (R107, R118) -/

theorem State.setChannel_channel (s : State) (ch : ChannelId) : s.setChannel ch (s.channel ch) = s := by
  have same : s.channels.set ch (s.channel ch) = s.channels := Vector.set_getElem_self (i := ch.val) ch.isLt
  rw [State.setChannel, same]

/-- R118: the notice of a channel whose record was replaced. -/
theorem channelNotice_setChannel (s : State) (ch : ChannelId) (cause : ChannelCause) (x : Channel) :
    channelNotice ch (s.channel ch).state cause (s.setChannel ch x) = channelEntered s ch cause x := by
  unfold channelNotice channelEntered
  rw [State.channel_setChannel_self]
  rfl

/-- R118: the notice of a channel whose record stays. -/
theorem channelNotice_unchanged (s : State) (ch : ChannelId) (cause : ChannelCause) :
    channelNotice ch (s.channel ch).state cause s = channelEntered s ch cause (s.channel ch) := by
  rw [← channelNotice_setChannel, State.setChannel_channel]

theorem clearChannel_eq (s : State) (ch : ChannelId) :
    clearChannel ch s = channelLoss ch .cleared (channelEntered s ch .cleared Channel.unmapped) := by
  unfold clearChannel
  rw [channelNotice_setChannel]

theorem mapClear_out {n : Nat} (out : 16 ≤ n) (s : State) : mapClear n s = (s, Reply.refuse .badValue) := by
  unfold mapClear
  rw [index_of_le out]

theorem mapClear_busy {s : State} {ch : ChannelId}
    (busy : (s.channel ch).state = .waiting ∨ (s.channel ch).state = .copying) :
    mapClear ch.val s = (s, Reply.refuse .busy) := by
  unfold mapClear
  rw [index_val]
  rcases busy with e | e <;> (dsimp only; rw [e])

theorem mapClear_unmapped {s : State} {ch : ChannelId} (e : (s.channel ch).state = .unmapped) :
    mapClear ch.val s = (channelEntered s ch .cleared (s.channel ch), Reply.ok false .empty) := by
  rw [← channelNotice_unchanged, e, mapClear, index_val]
  dsimp only
  rw [e]

theorem mapClear_mapped {s : State} {ch : ChannelId} (waiting : (s.channel ch).state ≠ .waiting)
    (copying : (s.channel ch).state ≠ .copying) (mapped : (s.channel ch).state ≠ .unmapped) :
    mapClear ch.val s = (clearChannel ch s, Reply.ok false .empty) := by
  rw [mapClear, index_val]
  dsimp only
  split
  · next e => exact absurd e waiting
  · next e => exact absurd e copying
  · next e => exact absurd e mapped
  · rfl
  · rfl
  · rfl
  · rfl

/-! ### A loss or a sample at a motor (R33, R34) -/

/-- Motion's work besides its notices: the motors and their grants alone change. -/
def MotorsOnly (s t : State) : Prop := t = { s with motors := t.motors, governor := t.governor }

theorem MotorsOnly.trans {a b c : State} (h : MotorsOnly a b) (k : MotorsOnly b c) : MotorsOnly a c := by
  unfold MotorsOnly at h
  rw [MotorsOnly, k, h]

theorem motorsOnly_setMotor (s : State) (m : MotorId) (x : Motor) : MotorsOnly s (s.setMotor m x) := rfl

theorem motorsOnly_enterRest (m : MotorId) (st : MotorState) (s : State) : MotorsOnly s (enterRest m st s) := by
  by_cases e : (s.motor m).state = st
  · rw [enterRest_of_eq e]; rfl
  · rw [enterRest_of_ne e]; rfl

theorem motorsOnly_applyEndAction (m : MotorId) (e : EndAction) (ref : HoldRef) (s : State) :
    MotorsOnly s (applyEndAction m e ref s) := by
  cases e with
  | coast => exact motorsOnly_enterRest m .idle s
  | brake => exact motorsOnly_enterRest m .braked s
  | hold => rfl
  | blend => rfl

theorem motorsOnly_place {s t : State} (h : MotorsOnly s t) (src : Source) (b : NoticeBody) :
    MotorsOnly (s.place src b) (t.place src b) := by
  rw [h]
  unfold State.place MotorsOnly
  split <;> cases src <;> rfl

/-- R40: the notice of an end after motion's work. -/
theorem MotorsOnly.endNotice {s t : State} (h : MotorsOnly s t) (m : MotorId) (a : Active) (reason : EndReason)
    (pos : Word) (discarded : Nat) :
    MotorsOnly (s.place (s.ownerLink (.motor m)) (.segmentEnd m a.seg.tag reason false pos discarded s.time))
      (endNotice m a reason false pos discarded t) := by
  have own : t.ownerLink (.motor m) = s.ownerLink (.motor m) := by rw [h]; rfl
  have time : t.time = s.time := by rw [h]
  rw [Machine.endNotice, own, time]
  exact motorsOnly_place h _ _

theorem conditionNames_iff (ch : ChannelId) (seg : Segment) :
    conditionNames ch seg = true ↔ ∃ idx side x, seg.condition = .channel ch idx side x := by
  unfold conditionNames
  cases seg.condition <;> simp

theorem conditionMet_unnamed {ch : ChannelId} {seg : Segment}
    (h : ¬∃ idx side x, seg.condition = .channel ch idx side x)
    (c : Channel) : conditionMet ch c seg = false := by
  unfold conditionMet
  split
  · next k idx side x e =>
    have other : k ≠ ch := fun same => h ⟨idx, side, x, same ▸ e⟩
    simp [other]
  · rfl
  · rfl

/-- R33: a condition on value `idx` is met by the channel's values. -/
def ConditionMet (c : Channel) (idx : Fin 8) (side : Side) (x : Int) : Prop :=
  idx.val < c.valueCount ∧
    match side with
    | .above => x < c.values[idx]
    | .below => c.values[idx] < x

theorem conditionMet_iff {ch : ChannelId} {seg : Segment} {idx : Fin 8} {side : Side} {x : Int}
    (e : seg.condition = .channel ch idx side x) (c : Channel) :
    conditionMet ch c seg = true ↔ ConditionMet c idx side x := by
  unfold conditionMet ConditionMet
  rw [e]
  cases side <;> simp

theorem lossAtMotor_names {ch : ChannelId} {m : MotorId} {s : State} {a : Active} (act : (s.motor m).active = some a)
    (names : conditionNames ch a.seg = true) :
    lossAtMotor ch m s = endByForce m .sensorLost .braked (s.motor m).position s := by
  unfold lossAtMotor; rw [act]; exact if_pos names

theorem lossAtMotor_unnamed {ch : ChannelId} {m : MotorId} {s : State}
    (none : ∀ a, (s.motor m).active = some a → ¬∃ idx side x, a.seg.condition = .channel ch idx side x) :
    lossAtMotor ch m s = (s, []) := by
  unfold lossAtMotor
  split
  · rfl
  · next a act => exact if_neg (mt (conditionNames_iff ch a.seg).1 (none a act))

theorem sampleAtMotor_met {ch : ChannelId} {m : MotorId} {s : State} {a : Active} (act : (s.motor m).active = some a)
    (met : conditionMet ch (s.channel ch) a.seg = true) :
    sampleAtMotor ch m s = endByAction m .condition (.here (s.motor m).position) (s.motor m).position s := by
  unfold sampleAtMotor; rw [act]; exact if_pos met

theorem sampleAtMotor_unmet {ch : ChannelId} {m : MotorId} {s : State}
    (none : ∀ a, (s.motor m).active = some a → ¬conditionMet ch (s.channel ch) a.seg = true) :
    sampleAtMotor ch m s = (s, []) := by
  unfold sampleAtMotor
  split
  · rfl
  · next a act => exact if_neg (none a act)

/-- R7: the motor after entry to a state at rest, whatever it was in. -/
theorem motor_enterRest_ite (m : MotorId) (st : MotorState) (s : State) :
    (enterRest m st s).motor m = if (s.motor m).state = st then s.motor m else Motor.rest st (s.motor m) := by
  split
  · next e => rw [enterRest_of_eq e]
  · next e => exact motor_enterRest e

/-- R34, R107, R113: a loss at a motor whose active segment names the channel. -/
theorem lossAtMotor_ends {ch : ChannelId} {m : MotorId} {s : State} {a : Active} (act : (s.motor m).active = some a)
    (names : ∃ idx side x, a.seg.condition = .channel ch idx side x) :
    let mo := s.motor m
    ∃ t,
      lossAtMotor ch m s = (t, [.segmentEnd m a.seg.tag .sensorLost false]) ∧
      t.motor m =
        (if mo.state = .braked then { mo with active := none, queue := [] }
         else
           { mo with
             state := .braked, active := none, queue := [], u := 0, uLim := 0, uOut := 0, starved := false
             limited := .clear, overCount := 0, stallMs := 0 }) ∧
      (mo.state ≠ .braked → t.governor.supply (.motor m) = ⟨0, 0⟩) ∧
      (∀ r, r ≠ .motor m → t.governor.supply r = s.governor.supply r) ∧ (∀ k, k ≠ m → t.motor k = s.motor k) ∧
      t = { s.place (s.ownerLink (.motor m))
              (.segmentEnd m a.seg.tag .sensorLost false mo.position mo.queue.length s.time) with
            motors := t.motors, governor := t.governor } := by
  intro mo
  have cleared : (s.setMotor m mo.cleared).motor m = mo.cleared := State.motor_setMotor_self s m _
  have work : AtMotor m s (enterRest m .braked (s.setMotor m mo.cleared)) :=
    (atMotor_setMotor s m _).trans (atMotor_enterRest m _ _)
  have all := work.trans (atMotor_place m _ ((enterRest m .braked (s.setMotor m mo.cleared)).ownerLink (.motor m))
    (.segmentEnd m a.seg.tag .sensorLost false mo.position mo.queue.length
      (enterRest m .braked (s.setMotor m mo.cleared)).time))
  refine ⟨_, (lossAtMotor_names act ((conditionNames_iff ch a.seg).2 names)).trans (endByForce_some act _ _ _), ?_,
    fun moves => ?_, all.supplies, all.motors,
    ((motorsOnly_setMotor s m _).trans (motorsOnly_enterRest m _ _)).endNotice m a _ _ _⟩
  · rw [endNotice, State.motor_place, motor_enterRest_ite, cleared]
    rfl
  · rw [endNotice, State.place_governor]
    exact supply_enterRest (by rw [cleared]; exact moves)

/-- R29, Table 2-4: the motor after an end action at its position, whatever state it was in. -/
theorem motor_applyEndAction_here (e : EndAction) (pos : Word) (m : MotorId) (s : State) :
    (applyEndAction m e (.here pos) s).motor m =
      match e with
      | .coast => if (s.motor m).state = .idle then s.motor m else Motor.rest .idle (s.motor m)
      | .brake => if (s.motor m).state = .braked then s.motor m else Motor.rest .braked (s.motor m)
      | _ => { s.motor m with state := .holding, refPos := pos, refFrac := 0, vRef := 0, accFrac := 0 } := by
  cases e with
  | coast => exact motor_enterRest_ite m .idle s
  | brake => exact motor_enterRest_ite m .braked s
  | hold => exact State.motor_modMotor_self s m _
  | blend => exact State.motor_modMotor_self s m _

/-- R33: a fresh sample at a motor whose active segment's condition it meets. -/
theorem sampleAtMotor_ends {ch : ChannelId} {m : MotorId} {s : State} {a : Active} (act : (s.motor m).active = some a)
    (met : conditionMet ch (s.channel ch) a.seg = true) :
    let mo := s.motor m
    let gone := { mo with active := none }
    let rest := fun st =>
      if mo.state = st then gone
      else
        { gone with
          state := st, u := 0, uLim := 0, uOut := 0, starved := false, limited := .clear, overCount := 0
          stallMs := 0 }
    ∃ t,
      sampleAtMotor ch m s = (t, [.segmentEnd m a.seg.tag .condition false]) ∧
      t.motor m =
        (match a.seg.endAction with
         | .coast => rest .idle
         | .brake => rest .braked
         | _ => { gone with state := .holding, refPos := mo.position, refFrac := 0, vRef := 0, accFrac := 0 }) ∧
      (a.seg.endAction = .coast → mo.state ≠ .idle → t.governor.supply (.motor m) = ⟨0, 0⟩) ∧
      (a.seg.endAction = .brake → mo.state ≠ .braked → t.governor.supply (.motor m) = ⟨0, 0⟩) ∧
      (∀ r, r ≠ .motor m → t.governor.supply r = s.governor.supply r) ∧ (∀ k, k ≠ m → t.motor k = s.motor k) ∧
      t = { s.place (s.ownerLink (.motor m)) (.segmentEnd m a.seg.tag .condition false mo.position 0 s.time) with
            motors := t.motors, governor := t.governor } := by
  intro mo gone rest
  let u := s.setMotor m gone
  let v := endActionTaken m a (.here mo.position) s
  have self : u.motor m = gone := State.motor_setMotor_self s m _
  have leaves := leaves_endByAction act .condition (.here mo.position) mo.position
  rw [endByAction_some act] at leaves
  refine ⟨endNotice m a .condition false mo.position 0 v,
    (sampleAtMotor_met act met).trans (endByAction_some act _ _ _), ?_, fun coast moves => ?_, fun brake moves => ?_,
    leaves.atMotor.supplies, leaves.atMotor.motors,
    ((motorsOnly_setMotor s m _).trans (motorsOnly_applyEndAction m _ _ _)).endNotice m a _ _ _⟩
  · rw [endNotice, State.motor_place]
    refine (motor_applyEndAction_here a.seg.endAction mo.position m u).trans ?_
    rw [self]
    cases a.seg.endAction <;> rfl
  · rw [endNotice, State.place_governor]
    show (applyEndAction m a.seg.endAction _ u).governor.supply (.motor m) = ⟨0, 0⟩
    rw [coast]
    exact supply_enterRest (by rw [self]; exact moves)
  · rw [endNotice, State.place_governor]
    show (applyEndAction m a.seg.endAction _ u).governor.supply (.motor m) = ⟨0, 0⟩
    rw [brake]
    exact supply_enterRest (by rw [self]; exact moves)

end Sys2Proof.Machine

namespace Sys2Proof.Machine

open Sys2Proof.Safety

/-! ### The watches judged one after the other (R123, R125, R126) -/

/-- Of a state the watches alone change. -/
def WatchesOnly (s t : State) : Prop := t = { s with watches := t.watches }

theorem WatchesOnly.trans {a b c : State} (h : WatchesOnly a b) (k : WatchesOnly b c) : WatchesOnly a c := by
  unfold WatchesOnly at h
  rw [WatchesOnly, k, h]

theorem WatchesOnly.channels {s t : State} (h : WatchesOnly s t) : t.channels = s.channels := by
  rw [h]

/-- The turn of one entry, judged by `judge`: its record after, and whether it fires. -/
def judgeEntry (judge : State → EntryId → Option (Watch × Bool)) (acc : State × List EntryId) (n : EntryId) :
    State × List EntryId :=
  match judge acc.1 n with
  | none => acc
  | some x => (acc.1.setWatch n (some x.1), if x.2 then acc.2 ++ [n] else acc.2)

/-- A judgement looks at the entry's own watch and at the channels alone. -/
def JudgesEntry (judge : State → EntryId → Option (Watch × Bool)) : Prop :=
  ∀ t u n, t.watch n = u.watch n → t.channels = u.channels → judge t n = judge u n

theorem judgeEntry_watch (judge : State → EntryId → Option (Watch × Bool)) (acc : State × List EntryId)
    (a n : EntryId) :
    (judgeEntry judge acc a).1.watch n =
      if n = a then ((judge acc.1 a).map Prod.fst).or (acc.1.watch a) else acc.1.watch n := by
  unfold judgeEntry
  split
  · next e => rw [e]; split <;> simp_all
  · next x e =>
    rw [e]
    by_cases same : n = a
    · subst same; simp
    · rw [if_neg same]
      exact State.watch_setWatch_ne _ _ (Ne.symm same)

theorem judgeEntry_fired (judge : State → EntryId → Option (Watch × Bool)) (acc : State × List EntryId)
    (a : EntryId) :
    (judgeEntry judge acc a).2 = acc.2 ++ [a].filter fun n => (judge acc.1 n).any Prod.snd := by
  unfold judgeEntry
  split
  · next e => simp [e]
  · next x e => cases f : x.2 <;> simp [e, f]

theorem judgeEntry_rest (judge : State → EntryId → Option (Watch × Bool)) (acc : State × List EntryId)
    (a : EntryId) :
    WatchesOnly acc.1 (judgeEntry judge acc a).1 := by
  unfold judgeEntry
  split <;> rfl

/-- Every entry is judged as it stood before the first turn. -/
theorem judgeEntry_foldl {judge : State → EntryId → Option (Watch × Bool)} (alone : JudgesEntry judge)
    {xs : List EntryId} (nodup : xs.Nodup) (s : State) (fired : List EntryId) :
    let r := xs.foldl (judgeEntry judge) (s, fired)
    WatchesOnly s r.1 ∧
    (∀ n, r.1.watch n = if n ∈ xs then ((judge s n).map Prod.fst).or (s.watch n) else s.watch n) ∧
    r.2 = fired ++ xs.filter fun n => (judge s n).any Prod.snd := by
  induction xs generalizing s fired with
  | nil => exact ⟨rfl, fun n => rfl, (List.append_nil fired).symm⟩
  | cons a rest ih =>
    obtain ⟨notRest, nodup⟩ := List.nodup_cons.1 nodup
    obtain ⟨others, watch, list⟩ := ih nodup (judgeEntry judge (s, fired) a).1 (judgeEntry judge (s, fired) a).2
    have turn := judgeEntry_watch judge (s, fired) a
    have kept := judgeEntry_rest judge (s, fired) a
    have same : ∀ n ∈ rest, judge (judgeEntry judge (s, fired) a).1 n = judge s n := fun n mem =>
      alone _ _ n ((turn n).trans (if_neg fun e : n = a => notRest (e ▸ mem))) kept.channels
    rw [List.foldl_cons]
    refine ⟨kept.trans others, fun n => ?_, ?_⟩
    · rw [watch n, turn n]
      by_cases e : n = a
      · subst e
        rw [if_neg notRest, if_pos rfl, if_pos List.mem_cons_self]
      · rw [if_neg e]
        by_cases mem : n ∈ rest
        · rw [if_pos mem, if_pos (List.mem_cons_of_mem a mem), same n mem]
        · rw [if_neg mem, if_neg (by simp [e, mem])]
    · have filtered : (rest.filter fun n => (judge (judgeEntry judge (s, fired) a).1 n).any Prod.snd) =
          rest.filter fun n => (judge s n).any Prod.snd := List.filter_congr fun n mem => by rw [same n mem]
      rw [list, judgeEntry_fired, filtered, List.append_assoc, ← List.filter_append, List.singleton_append]

/-- R126: the notices of entries whose watches are on channel `ch`, in order. -/
theorem watchNotice_foldl {t : State} {ch : ChannelId} (cause : WatchCause) {xs : List EntryId}
    (on : ∀ n ∈ xs, ∀ w, t.watch n = some w → w.channel = ch) (u : State)
    (watches : u.watches = t.watches) (channels : u.channels = t.channels) (time : u.time = t.time) :
    xs.foldl (watchNotice cause) u =
      placed u (xs.filterMap fun n => (t.watch n).map fun w =>
        (w.creator, .watchFired n ch w.index w.test cause (t.channel ch).values[w.index] w.state w.fires
          (t.channel ch).stamp t.time)) := by
  induction xs generalizing u with
  | nil => rfl
  | cons n rest ih =>
    have later := ih fun k mem => on k (List.mem_cons_of_mem n mem)
    have own : u.watch n = t.watch n := congrArg (·[n]) watches
    have chan (k : ChannelId) : u.channel k = t.channel k := congrArg (·[k]) channels
    rw [List.foldl_cons]
    cases h : t.watch n with
    | none =>
      rw [List.filterMap_cons_none (by rw [h]; rfl), watchNotice, own, h]
      exact later u watches channels time
    | some w =>
      have fits := on n List.mem_cons_self w h
      rw [List.filterMap_cons_some (by rw [h]; rfl), watchNotice, own, h]
      dsimp only
      rw [later _ (by rw [State.place_watches, watches]) (by rw [State.place_channels, channels])
        (by rw [State.place_time, time]), fits, chan, time]
      rfl

/-- R126: the watches judged, the notices of those that fired, and their events. -/
theorem reportFirings_judged {judge : State → EntryId → Option (Watch × Bool)} (alone : JudgesEntry judge)
    {ch : ChannelId} {s : State}
    (on : ∀ n x, judge s n = some x → x.1.channel = ch) (cause : WatchCause) :
    let fired := allEntries.filter fun n => (judge s n).any Prod.snd
    ∃ t,
      reportFirings cause (allEntries.foldl (judgeEntry judge) (s, [])) =
        fired.foldl (fun u n => react (.watch n cause) u)
          (placed t (fired.filterMap fun n => (t.watch n).map fun w =>
            (w.creator, .watchFired n ch w.index w.test cause (s.channel ch).values[w.index] w.state w.fires
              (s.channel ch).stamp s.time))) ∧
      (∀ n, t.watch n = ((judge s n).map Prod.fst).or (s.watch n)) ∧ WatchesOnly s t := by
  intro fired
  obtain ⟨kept, watch, list⟩ := judgeEntry_foldl alone nodup_allEntries s []
  generalize allEntries.foldl (judgeEntry judge) (s, []) = r at kept watch list ⊢
  have after (n : EntryId) : r.1.watch n = ((judge s n).map Prod.fst).or (s.watch n) := by
    rw [watch n, if_pos (mem_allEntries n)]
  have onFired : ∀ n ∈ fired, ∀ w, r.1.watch n = some w → w.channel = ch := by
    intro n mem w h
    rw [after n] at h
    cases j : judge s n with
    | none => rw [List.mem_filter, j] at mem; cases mem.2
    | some x =>
      rw [j] at h
      cases h
      exact on n x j
  have channel : r.1.channel ch = s.channel ch := by rw [kept]; rfl
  have time : r.1.time = s.time := by rw [kept]
  refine ⟨r.1, ?_, after, kept⟩
  unfold reportFirings
  rw [show r.2 = fired from list]
  dsimp only
  rw [watchNotice_foldl cause onFired r.1 rfl rfl rfl, channel, time]

theorem evaluateWatch_channel (w : Watch) (v : Int) : (evaluateWatch w v).1.channel = w.channel := by
  show (storedWatch (evaluateWatch w v).1).channel = (storedWatch w).channel
  rw [storedWatch_evaluate]

/-- R123: the judgement of a watch against a sample of its channel. -/
def sampleJudgement (ch : ChannelId) (s : State) (n : EntryId) : Option (Watch × Bool) :=
  (s.watch n).bind fun w =>
    if w.channel = ch ∧ w.index.val < (s.channel ch).valueCount then
      some (evaluateWatch w (s.channel ch).values[w.index])
    else none

theorem sampleEntry_eq (ch : ChannelId) : sampleEntry ch = judgeEntry (sampleJudgement ch) := by
  funext acc n
  unfold sampleEntry judgeEntry sampleJudgement
  cases acc.1.watch n with
  | none => rfl
  | some w =>
    dsimp only [Option.bind_some]
    split <;> rfl

theorem judgesEntry_sample (ch : ChannelId) : JudgesEntry (sampleJudgement ch) := by
  intro t u n watch channels
  have channel : t.channel ch = u.channel ch := congrArg (·[ch]) channels
  unfold sampleJudgement
  rw [watch, channel]

/-- R125: the judgement of a watch at the loss of its channel. -/
def lossJudgement (ch : ChannelId) (s : State) (n : EntryId) : Option (Watch × Bool) :=
  (s.watch n).bind fun w => if w.channel = ch then some (loseWatch w) else none

theorem lossEntry_eq (ch : ChannelId) : lossEntry ch = judgeEntry (lossJudgement ch) := by
  funext acc n
  unfold lossEntry judgeEntry lossJudgement
  cases acc.1.watch n with
  | none => rfl
  | some w =>
    dsimp only [Option.bind_some]
    split <;> rfl

theorem judgesEntry_loss (ch : ChannelId) : JudgesEntry (lossJudgement ch) := by
  intro t u n watch _
  unfold lossJudgement
  rw [watch]

theorem loseWatch_channel (w : Watch) : (loseWatch w).1.channel = w.channel := by
  show (storedWatch (loseWatch w).1).channel = (storedWatch w).channel
  rw [storedWatch_lose]

theorem loseWatch_fires (w : Watch) : (loseWatch w).2 = w.fireOnLoss := by
  unfold loseWatch
  cases w.fireOnLoss with
  | false => rfl
  | true => cases w.test <;> rfl

/-- R125: the watch after a loss at which it fires. -/
theorem loseWatch_fired {w : Watch} (fires : w.fireOnLoss = true) :
    (loseWatch w).1 =
      match w.test with
      | .change _ => { w with fires := min 65535 (w.fires + 1), reference := none }
      | _ => { w with fires := min 65535 (w.fires + 1), state := .tripped } := by
  unfold loseWatch firedWatch countUp
  rw [if_pos fires]
  cases w.test <;> rfl

theorem loseWatch_quiet {w : Watch} (still : w.fireOnLoss = false) : (loseWatch w).1 = w := by
  unfold loseWatch
  rw [still]
  rfl

/-- R125: the entry fires at a loss of the channel. -/
def firesOnLoss (ch : ChannelId) (s : State) (n : EntryId) : Bool :=
  (s.watch n).any fun w => decide (w.channel = ch) && w.fireOnLoss

theorem lossJudgement_fires (ch : ChannelId) (s : State) (n : EntryId) :
    (lossJudgement ch s n).any Prod.snd = firesOnLoss ch s n := by
  unfold lossJudgement firesOnLoss
  cases s.watch n with
  | none => rfl
  | some w => by_cases on : w.channel = ch <;> simp [on, loseWatch_fires]

/-- R125: the record of an entry after a loss of the channel. -/
theorem lossJudgement_watch (ch : ChannelId) (s : State) (n : EntryId) :
    ((lossJudgement ch s n).map Prod.fst).or (s.watch n) =
      if firesOnLoss ch s n then (s.watch n).map fun w =>
        match w.test with
        | .change _ => { w with fires := min 65535 (w.fires + 1), reference := none }
        | _ => { w with fires := min 65535 (w.fires + 1), state := .tripped }
      else s.watch n := by
  unfold lossJudgement firesOnLoss
  cases s.watch n with
  | none => rfl
  | some w =>
    by_cases on : w.channel = ch
    · cases fires : w.fireOnLoss with
      | false => simp [on, fires, loseWatch_quiet fires]
      | true => simp [on, fires, loseWatch_fired fires]
    · simp [on]

/-- R123, R126: the watches at a fresh sample of a channel. -/
theorem watchSample_judged (ch : ChannelId) (s : State) :
    let fired := allEntries.filter fun n => (sampleJudgement ch s n).any Prod.snd
    ∃ t,
      watchSample ch s = fired.foldl (fun u n => react (.watch n .value) u)
        (placed t (fired.filterMap fun n => (t.watch n).map fun w =>
          (w.creator, .watchFired n ch w.index w.test .value (s.channel ch).values[w.index] w.state w.fires
            (s.channel ch).stamp s.time))) ∧
      (∀ n, t.watch n = ((sampleJudgement ch s n).map Prod.fst).or (s.watch n)) ∧ WatchesOnly s t := by
  unfold watchSample
  rw [sampleEntry_eq]
  refine reportFirings_judged (judgesEntry_sample ch) (fun n x e => ?_) .value
  obtain ⟨w, -, e⟩ := Option.bind_eq_some_iff.1 e
  split at e
  · next on => cases e; exact (evaluateWatch_channel w _).trans on.1
  · cases e

/-- R125, R126: the watches at the loss of a channel. -/
theorem watchLoss_judged (ch : ChannelId) (cause : WatchCause) (s : State) :
    let fired := allEntries.filter (firesOnLoss ch s)
    ∃ t,
      watchLoss ch cause s = fired.foldl (fun u n => react (.watch n cause) u)
        (placed t (fired.filterMap fun n => (t.watch n).map fun w =>
          (w.creator, .watchFired n ch w.index w.test cause (s.channel ch).values[w.index] w.state w.fires
            (s.channel ch).stamp s.time))) ∧
      (∀ n, t.watch n = ((lossJudgement ch s n).map Prod.fst).or (s.watch n)) ∧ WatchesOnly s t := by
  unfold watchLoss
  rw [lossEntry_eq, ← funext (lossJudgement_fires ch s)]
  refine reportFirings_judged (judgesEntry_loss ch) (fun n x e => ?_) cause
  obtain ⟨w, -, e⟩ := Option.bind_eq_some_iff.1 e
  split at e
  · next on => cases e; exact (loseWatch_channel w).trans on
  · cases e

end Sys2Proof.Machine

namespace Sys2Proof.Machine

open Sys2Proof.Safety

/-! ### Samples at the channel map (R108, R109, R110) -/

theorem scaled_eq (c : Channel) (raw : Half) :
    scaled c raw = max (-1000000000) (min 1000000000 ((raw.toInt * c.num).tdiv c.den + c.offset)) :=
  clampInt_eq (by decide) _

theorem scaleValues_get (c : Channel) (raw : List Half) (i : Fin 8) :
    (scaleValues c raw)[i] =
      if i.val < c.valueCount then
        max (-1000000000) (min 1000000000 (((raw.getD i.val 0).toInt * c.num).tdiv c.den + c.offset))
      else c.values[i] := by
  rw [← scaled_eq]
  fin_cases i <;> rfl

theorem allChannels_pairwise_lt : allChannels.Pairwise (· < ·) := by decide

/-- R106: a module backs the lowest-numbered channel that names it. -/
theorem backedChannel_eq {s : State} {n : ModuleName} {ch : ChannelId} (names : backs (s.channel ch) n = true)
    (lowest : ∀ k, k < ch → ¬backs (s.channel k) n = true) : backedChannel s n = some ch := by
  obtain ⟨before, after, split⟩ := List.append_of_mem (mem_allChannels ch)
  have sorted := allChannels_pairwise_lt
  rw [split, List.pairwise_append] at sorted
  refine List.find?_eq_some_iff_append.2 ⟨names, before, after, split, fun k mem => ?_⟩
  simpa using lowest k (sorted.2.2 k mem ch List.mem_cons_self)

theorem backedChannel_eq_none {s : State} {n : ModuleName} (unbacked : ∀ ch, ¬backs (s.channel ch) n = true) :
    backedChannel s n = none :=
  List.find?_eq_none.2 fun ch _ => unbacked ch

theorem takesSample_iff (c : Channel) (n : ModuleName) (r : ModuleRecord) :
    takesSample c n r = true ↔ (c.state = .single ∨ c.state = .redundant ∨ c.state = .exposed) ∧
      Channel.servingModule c = some n ∧ r.state = .ready := by
  simp [takesSample, or_assoc, and_assoc]

theorem channelSample_none {s : State} {n : ModuleName} (none : backedChannel s n = none) (r : ModuleRecord)
    (x : Sample) : channelSample n r x s = s := by
  unfold channelSample; rw [none]

theorem channelSample_backed {s : State} {n : ModuleName} {ch : ChannelId} (backed : backedChannel s n = some ch)
    (r : ModuleRecord) (x : Sample) :
    channelSample n r x s =
      if takesSample (s.channel ch) n r then
        deliverSample ch (s.setChannel ch
          (takeSample (s.channel ch) x s.time ((s.chain n.port).syncPeriod * r.divider)))
      else s := by
  unfold channelSample; rw [backed]

/-- R110: STALE_DEADLINE. -/
theorem exec_staleDeadline (ch : ChannelId) (s : State) :
    exec (.staleDeadline ch) s =
      .next (if (s.channel ch).staleAt.isSome then s.modChannel ch staleChannel else s) := by
  rfl

/-- R107: MAP_CLEAR as it is served. -/
theorem exec_mapClear {s : State} {i : Fin 8} (h : Accepts s .program i) (tag : Byte) (n : Nat) :
    exec (.mapClear .program tag n) s =
      .next ((mapClear n (reserved s .program i 0x29#8 tag)).1.post .program i
        (mapClear n (reserved s .program i 0x29#8 tag)).2) :=
  next_congr (serve_accepted h .mapClear tag (mapClear n) fun _ => rfl)

/-- Settles O42: MAP_CLEAR, a loss and a sample at motors and watches, STALE_DEADLINE, and the scaling of values. -/
theorem mapClearAndStaleDeadline : Obligations.MapClearAndStaleDeadline := by
  unfold Obligations.MapClearAndStaleDeadline
  refine ⟨fun s i tag h => ?_, fun s ch cause => ⟨rfl, local_channelLoss ch cause s⟩, fun s ch m => ?_,
    fun s ch cause => ?_, fun s ch => ?_, fun s n r x => ?_, fun s ch => ?_, scaled_eq⟩
  · intro start
    refine ⟨fun ch => ⟨fun busy => ?_, fun unmapped => ?_, fun waiting copying mapped => ?_⟩, fun n out => ?_⟩
    · exact next_congr (serve_answered h .mapClear tag (fun _ => rfl) (mapClear_busy (by rwa [reserved_channel])))
    · rw [exec_mapClear h, mapClear_unmapped (by rwa [reserved_channel]), reserved_channel]
    · rw [exec_mapClear h, mapClear_mapped (by rwa [reserved_channel]) (by rwa [reserved_channel])
        (by rwa [reserved_channel]), clearChannel_eq, Channel.unmapped]
    · exact next_congr (serve_answered h .mapClear tag (fun _ => rfl) (mapClear_out out _))
  · intro mo naming
    refine ⟨fun none => ⟨lossAtMotor_unnamed none, sampleAtMotor_unmet fun a act => ?_⟩,
      fun a act names => lossAtMotor_ends act names, fun a idx side x act names => ⟨fun unmet => ?_, fun met => ?_⟩⟩
    · rw [conditionMet_unnamed (none a act)]
      decide
    · refine sampleAtMotor_unmet fun b actB => ?_
      cases act.symm.trans actB
      exact mt (conditionMet_iff names _).1 unmet
    · exact sampleAtMotor_ends act ((conditionMet_iff names _).2 met)
  · obtain ⟨t, report, watch, only⟩ := watchLoss_judged ch cause s
    exact ⟨t, report, fun n => (watch n).trans (lossJudgement_watch ch s n), only⟩
  · refine ⟨fun runs => ?_, fun none => ?_⟩
    · rw [exec_staleDeadline, if_pos (Option.isSome_iff_ne_none.2 runs)]
      rfl
    · rw [exec_staleDeadline, none]
      rfl
  · have names (ch : ChannelId) := backs_iff (s.channel ch) n
    refine ⟨fun none => channelSample_none (backedChannel_eq_none fun ch => mt (names ch).1 (none ch)) r x,
      fun ch here lowest => ?_⟩
    have backed := channelSample_backed (backedChannel_eq ((names ch).2 here)
      fun k lt => mt (names k).1 (lowest k lt)) r x
    have takes := takesSample_iff (s.channel ch) n r
    refine ⟨fun no => backed.trans (if_neg (mt takes.1 no)), fun yes => ⟨scaleValues (s.channel ch) x.values,
      scaleValues_get _ _, backed.trans (if_pos (takes.2 yes))⟩⟩
  · exact watchSample_judged ch s

end Sys2Proof.Machine

namespace Sys2Proof.Machine

open Sys2Proof.Safety

/-! ### The tick of a HOLDING motor (R5, R43, R52 to R56, R61) -/

/-- R12, R16, R43: stages 1 to 3 of a driven motor that takes no trip. -/
theorem tripStage_ticked {m : MotorId} {isense : Int} {s : State} (driven : (s.motor m).driving = true)
    (few : ((s.motor m).adopt.measure isense).tripCount < 2) :
    tripStage m (s.setMotor m ((s.motor m).adopt.measure isense)) =
      (s.setMotor m ((s.motor m).ticked isense), []) := by
  have self := State.motor_setMotor_self s m ((s.motor m).adopt.measure isense)
  rw [tripStage_counts (by rw [self]; exact driven) (by rwa [self]), self, State.setMotor_setMotor]
  rfl

/-- R5: a HOLDING motor with nothing pending that takes no trip and no stall goes through stages 6 to 9 alone. -/
theorem controlTick_holds {m : MotorId} {isense : Int} {s : State} (hold : (s.motor m).state = .holding)
    (empty : (s.motor m).queue = []) (few : ((s.motor m).adopt.measure isense).tripCount < 2) {x : Motor}
    (ticks : x = (s.motor m).ticked isense) (turns : ¬(x.granted s.governor m).Stalls) :
    controlTick m isense s =
      ((s.askSupply (.motor m) x.lawAsk).setMotor m
        { x.granted s.governor m with stallMs := (x.granted s.governor m).nextStallMs }, []) := by
  have self := State.motor_setMotor_self s m x
  have driven : (s.motor m).driving = true := (Motor.driving_iff _).mpr (.inr hold)
  have trip := tripStage_ticked driven few
  rw [← ticks] at trip
  have start : startStage m (s.setMotor m x) = (s.setMotor m x, []) :=
    startStage_none (.inr (.inr (by rw [self, ticks]; exact empty)))
  have profile : profileStage m (s.setMotor m x) = (s.setMotor m x, []) :=
    profileStage_none (by rw [self, ticks]; exact hold.trans_ne (by decide))
  have finish := finishTick_drives (m := m) (s := s.setMotor m x) (by rw [self, ticks]; exact driven)
    (by rw [self]; exact turns)
  rw [self] at finish
  refine (controlTick_of_stages trip start profile finish).trans (Prod.ext ?_ rfl)
  exact State.setMotor_setMotor (s.askSupply (.motor m) x.lawAsk) m _ _

/-- Settles O26: the tick of a HOLDING motor is its stages 1 to 3 and 6 to 9, and these are the law, the ask, the output
and the stall time in numbers. -/
theorem tickHoldingDrives : Obligations.TickHoldingDrives := by
  unfold Obligations.TickHoldingDrives
  intro s m isense mo c vmeas eP eV integ u uLim ask g uOut stalled hold _ empty low turns
  have calm : (mo.adopt.measure isense).tripCount = 0 := if_neg (Nat.not_lt.mpr low)
  let x : Motor :=
    { mo with
      config := c, pendingConfig := .empty, vmeas := vmeas, history := mo.history.tail ++ [mo.position]
      iAvg := min 8000 isense.natAbs, overCount := 0 }
  have ticks : x = mo.ticked isense := by
    unfold Motor.ticked
    rw [calm, Motor.measure_adopt_eq]
  have sampled : x.sampled = mo.position := by rw [ticks]; exact mo.sampled_measure isense
  obtain ⟨asked, granted⟩ := x.granted_eq s.governor m
  rw [sampled] at asked granted
  have stalls : stallCondition (x.granted s.governor m).config (x.granted s.governor m).uOut
      (x.granted s.governor m).vmeas = true ↔ stalled := by
    rw [stallCondition_iff, granted]
    rfl
  have counted : (x.granted s.governor m).nextStallMs = if stalled then mo.stallMs + 1 else 0 :=
    if_congr stalls rfl rfl
  rw [exec_controlTick, controlTick_holds hold empty (by rw [calm]; decide) ticks
    fun ⟨stall, late⟩ => turns ⟨stalls.mp stall, late⟩, counted, asked, granted]
  rfl

end Sys2Proof.Machine

namespace Sys2Proof.Machine

open Sys2Proof.Safety

/-! ### Grants handed out after a scale-down (R57, R66, R67) -/

/-- R57: the duty recomputed from a lowered grant, in numbers. -/
theorem Motor.recompute_eq (mo : Motor) (grant : Nat) :
    mo.recompute grant =
      if (mo.state = .running ∨ mo.state = .holding) ∧ grant < mo.uLim.natAbs * mo.config.stallCurrent / 1000 then
        { mo with
          uOut := mo.uLim.sign * ((grant * 1000 / mo.config.stallCurrent : Nat) : Int), starved := true
          limited := if 0 < mo.u then .positive else if mo.u < 0 then .negative else .clear }
      else mo := by
  unfold Motor.recompute motorAsk paidDuty
  rw [signOf_eq_sign]
  exact if_congr (and_congr_left' mo.driving_iff) rfl rfl

/-- What a grant drives: the grant of a resource, beside its motor or its voice. -/
def State.supplied (s : State) : Resource → Nat × (Motor ⊕ Voice)
  | .motor m => (s.grant (.motor m), .inl (s.motor m))
  | .voice v => (s.grant (.voice v), .inr (s.voice v))

/-- R67: a motor or a voice once its grant has been handed to it. -/
def regranted : Nat × (Motor ⊕ Voice) → Nat × (Motor ⊕ Voice)
  | (grant, .inl mo) => (grant, .inl (mo.recompute grant))
  | (grant, .inr vo) => (grant, .inr { vo with ceiling := grant * 1024 / 120 })

/-- R67: a grant handed to a resource reaches the motor or the voice of that resource alone. -/
theorem supplied_handGrant (s : State) (r q : Resource) :
    (handGrant s r).supplied q = if r = q then regranted (s.supplied r) else s.supplied q := by
  cases r with
  | motor m =>
    cases q with
    | motor k =>
      by_cases e : m = k
      · subst e
        rw [if_pos rfl]
        exact congrArg (fun mo => (s.grant (.motor m), Sum.inl mo)) (State.motor_setMotor_self s m _)
      · rw [if_neg (e ∘ Resource.motor.inj)]
        exact congrArg (fun mo => (s.grant (.motor k), Sum.inl mo)) (State.motor_setMotor_ne s _ e)
    | voice v => rfl
  | voice v =>
    cases q with
    | motor m => rfl
    | voice w =>
      by_cases e : v = w
      · subst e
        rw [if_pos rfl]
        exact congrArg (fun vo => (s.grant (.voice v), Sum.inr vo)) (State.voice_setVoice_self s v _)
      · rw [if_neg (e ∘ Resource.voice.inj)]
        exact congrArg (fun vo => (s.grant (.voice w), Sum.inr vo)) (State.voice_setVoice_ne s _ e)

/-- R67: grants handed to resources, each once. -/
theorem supplied_foldl_handGrant {rs : List Resource} (nodup : rs.Nodup) (s : State) (r : Resource) :
    (rs.foldl handGrant s).supplied r = if r ∈ rs then regranted (s.supplied r) else s.supplied r :=
  foldl_pointwise (get := State.supplied) (g := fun _ => regranted) supplied_handGrant nodup s r

theorem motor_foldl_handGrant {rs : List Resource} (nodup : rs.Nodup) (s : State) (m : MotorId) :
    (rs.foldl handGrant s).motor m =
      if .motor m ∈ rs then (s.motor m).recompute (s.grant (.motor m)) else s.motor m := by
  have handed := supplied_foldl_handGrant nodup s (.motor m)
  split_ifs at handed ⊢
  · exact Sum.inl.inj (congrArg Prod.snd handed)
  · exact Sum.inl.inj (congrArg Prod.snd handed)

theorem voice_foldl_handGrant {rs : List Resource} (nodup : rs.Nodup) (s : State) (v : VoiceId) :
    (rs.foldl handGrant s).voice v =
      if .voice v ∈ rs then { s.voice v with ceiling := s.grant (.voice v) * 1024 / 120 } else s.voice v := by
  have handed := supplied_foldl_handGrant nodup s (.voice v)
  split_ifs at handed ⊢
  · exact Sum.inr.inj (congrArg Prod.snd handed)
  · exact Sum.inr.inj (congrArg Prod.snd handed)

/-- R67: grants handed to resources change motors and voices alone. -/
theorem foldl_handGrant_frame (rs : List Resource) (s : State) :
    rs.foldl handGrant s =
      { s with motors := (rs.foldl handGrant s).motors, voices := (rs.foldl handGrant s).voices } := by
  refine List.foldlRecOn rs handGrant (b := s)
    (motive := fun t => t = { s with motors := t.motors, voices := t.voices }) rfl fun t same r _ => ?_
  rw [same]
  cases r <;> rfl

theorem governor_foldl_handGrant (rs : List Resource) (s : State) :
    (rs.foldl handGrant s).governor = s.governor := by
  rw [foldl_handGrant_frame]

theorem mem_affected (g : Governor) (r : Resource) : r ∈ affected g ↔ 0 < (g.supply r).grant := by
  simp [affected, mem_allResources]

theorem nodup_affected (g : Governor) : (affected g).Nodup := nodup_allResources.filter _

/-! ### BUDGET_SET (R65 to R67) -/

/-- R66, R67: the state with its grants scaled down to a budget and handed out. -/
def State.scaledDown (s : State) (budget : Nat) : State :=
  (affected s.governor).foldl handGrant { s with governor := s.governor.scaled budget }

theorem governor_scaledDown (s : State) (budget : Nat) :
    (s.scaledDown budget).governor = s.governor.scaled budget := governor_foldl_handGrant _ _

theorem scaledDown_frame (s : State) (budget : Nat) :
    s.scaledDown budget =
      { s with
        governor := (s.scaledDown budget).governor, motors := (s.scaledDown budget).motors
        voices := (s.scaledDown budget).voices } := by
  rw [governor_scaledDown]
  exact foldl_handGrant_frame _ _

/-- R57, R67: a motor after a scale-down. -/
theorem motor_scaledDown (s : State) (budget : Nat) (m : MotorId) :
    (s.scaledDown budget).motor m =
      if 0 < (s.governor.supply (.motor m)).grant then
        (s.motor m).recompute (((s.scaledDown budget).governor.supply (.motor m)).grant)
      else s.motor m := by
  rw [governor_scaledDown]
  exact (motor_foldl_handGrant (nodup_affected _) _ m).trans (if_congr (mem_affected _ _) rfl rfl)

/-- R67: a voice after a scale-down. -/
theorem voice_scaledDown (s : State) (budget : Nat) (v : VoiceId) :
    (s.scaledDown budget).voice v =
      if 0 < (s.governor.supply (.voice v)).grant then
        { s.voice v with ceiling := ((s.scaledDown budget).governor.supply (.voice v)).grant * 1024 / 120 }
      else s.voice v := by
  rw [governor_scaledDown]
  exact (voice_foldl_handGrant (nodup_affected _) _ v).trans (if_congr (mem_affected _ _) rfl rfl)

/-- R65: a budget that covers the grants is set, and nothing else changes. -/
theorem setBudget_covers {budget : Nat} {s : State} (covers : s.governor.used ≤ budget) :
    setBudget budget s = ({ s with governor := { s.governor with budget := budget } }, 0) := if_pos covers

/-- R66: a budget below the sum of the grants scales them down. -/
theorem setBudget_exceeded {budget : Nat} {s : State} (exceeded : budget < s.governor.used) :
    setBudget budget s = (s.scaledDown budget, (affected s.governor).length) := if_neg (Nat.not_le.mpr exceeded)

theorem handGrant_reserved (s : State) (src : Source) (i : Fin 8) (kind tag : Byte) (r : Resource) :
    handGrant (reserved s src i kind tag) r = reserved (handGrant s r) src i kind tag := by
  cases src <;> cases r <;> rfl

theorem scaledDown_reserved (s : State) (src : Source) (i : Fin 8) (kind tag : Byte) (budget : Nat) :
    (reserved s src i kind tag).scaledDown budget = reserved (s.scaledDown budget) src i kind tag := by
  unfold State.scaledDown
  rw [reserved_governor]
  have governed : { reserved s src i kind tag with governor := s.governor.scaled budget } =
      reserved { s with governor := s.governor.scaled budget } src i kind tag := by cases src <;> rfl
  rw [governed]
  exact List.foldl_hom (reserved · src i kind tag) fun t r => handGrant_reserved t src i kind tag r

/-- R65, R178: the setting of a budget and the reservation of a slot commute. -/
theorem setBudget_reserved (budget : Nat) (s : State) (src : Source) (i : Fin 8) (kind tag : Byte) :
    setBudget budget (reserved s src i kind tag) =
      (reserved (setBudget budget s).1 src i kind tag, (setBudget budget s).2) := by
  rcases Nat.lt_or_ge budget s.governor.used with exceeded | covers
  · rw [setBudget_exceeded exceeded, setBudget_exceeded (by rwa [reserved_governor]), scaledDown_reserved,
      reserved_governor]
  · rw [setBudget_covers covers, setBudget_covers (by rwa [reserved_governor])]
    cases src <;> rfl

/-- R65: BUDGET_SET as it is answered. -/
theorem exec_budgetSet {s : State} {i : Fin 8} (h : Accepts s .program i) (tag : Byte) (x : Int) :
    let b := (max 500 (min 8000 x)).toNat
    let t := (setBudget b s).1
    exec (.budgetSet .program tag x) s =
      .next (answered t .program i 0x18#8 tag
        (Reply.ok (decide (x < 500 ∨ 8000 < x)) (.budgetSet t.governor.budget t.governor.used (setBudget b s).2))) := by
  intro b t
  have clamps : clampNat 500 8000 x = b := congrArg Int.toNat (clampInt_eq (by decide) x)
  have cuts : outOfRange 500 8000 x = decide (x < 500 ∨ 8000 < x) := by
    rw [Bool.eq_iff_iff, outOfRange_iff, decide_eq_true_iff]
  refine next_congr (serve_answered h .budgetSet tag (act := budgetSet x) (fun _ => rfl) ?_)
  unfold budgetSet
  rw [clamps, cuts, setBudget_reserved]
  dsimp only
  rw [reserved_governor]

/-- Settles O30: BUDGET_SET by whether the new budget covers the grants, and an ask by what it sets. -/
theorem budgetSetScalesGrants : Obligations.BudgetSetScalesGrants := by
  unfold Obligations.BudgetSetScalesGrants
  refine ⟨fun s i tag x h => ?_, fun g r a within => ⟨?_, fun q other => ?_, ?_, ?_⟩⟩
  · intro b g clamped
    refine ⟨fun covers => ?_, fun exceeded => ⟨s.scaledDown b, ?_, ?_, ?_, fun r => ?_, fun m => ?_, fun v => ?_, ?_⟩⟩
    · rw [exec_budgetSet h, setBudget_covers covers]
      rfl
    · rw [exec_budgetSet h, setBudget_exceeded exceeded, governor_scaledDown]
      rfl
    · rw [governor_scaledDown]
      rfl
    · rw [governor_scaledDown]
      exact g.used_scaled b
    · rw [governor_scaledDown, Governor.supply_scaled]
      rfl
    · intro mo grant
      rw [ite_and, ← Motor.recompute_eq]
      exact motor_scaledDown s b m
    · exact voice_scaledDown s b v
    · exact scaledDown_frame s b
  · exact Governor.supply_setSupply_self g r _
  · exact (Governor.supply_setSupply g r q _).trans (if_neg other.symm)
  · exact g.ask_budget r a
  · exact Governor.used_ask within r a

end Sys2Proof.Machine

namespace Sys2Proof.Machine

open Sys2Proof.Safety

/-! ### Every command keeps the grants within the budget (R60, R65, R66) -/

/-- R60, R66: from one state to the next, the grants stay within the budget, and the budget within its range. -/
structure KeepsBudget (s t : State) : Prop where
  inv : BudgetInv s → BudgetInv t

theorem KeepsBudget.refl (s : State) : KeepsBudget s s := ⟨fun h => h⟩

theorem KeepsBudget.trans {a b c : State} (h : KeepsBudget a b) (k : KeepsBudget b c) : KeepsBudget a c :=
  ⟨fun e => k.inv (h.inv e)⟩

/-- The invariant reads the supply governor alone. -/
theorem KeepsBudget.of_governor {s t : State} (same : t.governor = s.governor) : KeepsBudget s t where
  inv h := by
    unfold BudgetInv
    rwa [same]

/-- R60, R63: the work of motors, voices, reactions, channels and chains asks and releases, and sets no budget. -/
theorem keepsBudget_of_steady {s t : State} (h : Steady s t) : KeepsBudget s t where
  inv | ⟨within, low, high⟩ => ⟨h.grants within, h.budget.symm ▸ low, h.budget.symm ▸ high⟩

theorem keepsBudget_ite {p : Prop} [Decidable p] {s a b : State} (h : KeepsBudget s a) (k : KeepsBudget s b) :
    KeepsBudget s (if p then a else b) := by
  split
  · exact h
  · exact k

/-- R161: ends and gifts of claims, one after the other, are quiet but for the owner records. -/
theorem keepsBudget_of_withClaims {s t : State} (h : Quiet s (withClaims t s)) : KeepsBudget s t where
  inv := (keepsBudget_of_steady h.toSteady).inv

/-- R59: the governor after reset, whatever it was before. -/
theorem keepsBudget_of_reset {t : State} (reset : t.governor = Governor.reset) (s : State) : KeepsBudget s t where
  inv _ := by
    unfold BudgetInv
    rw [reset]
    decide

/-! ### Acts that leave the governor alone -/

theorem governor_claimRequest (src : Source) (f : ClaimFields) (s : State) :
    (claimRequest src f s).1.governor = s.governor := by
  fun_cases claimRequest src f s
  · rfl
  · rfl
  · exact foldl_keeps (fun t r => State.setClaim_governor t r _) _ s

theorem governor_renewRequest (src : Source) (set : List Resource) (s : State) :
    (renewRequest src set s).1.governor = s.governor := by
  fun_cases renewRequest src set s
  · rfl
  · refine foldl_keeps (fun t r => ?_) _ s
    split
    · exact State.setClaim_governor t r _
    · rfl

theorem governor_motorSet (f : MotorSetFields) (m : MotorId) (s : State) :
    (motorSet f m s).1.governor = s.governor := by
  fun_cases motorSet f m s <;> rfl

theorem governor_motorRead (n : Nat) (s : State) : (motorRead n s).1.governor = s.governor := by
  fun_cases motorRead n s <;> rfl

theorem governor_zeroMotor (value : Word) (m : MotorId) (s : State) :
    (zeroMotor value m s).1.governor = s.governor := by
  fun_cases zeroMotor value m s <;> rfl

theorem governor_segMotor (r : RawSegment) (m : MotorId) (s : State) :
    (segMotor r m s).1.governor = s.governor := by
  fun_cases segMotor r m s <;> rfl

theorem governor_chainRead (port : Nat) (s : State) : (chainRead port s).1.governor = s.governor := by
  fun_cases chainRead port s <;> rfl

theorem governor_moduleRead (port pos : Nat) (s : State) : (moduleRead port pos s).1.governor = s.governor := by
  fun_cases moduleRead port pos s <;> rfl

theorem governor_channelRead (n : Nat) (s : State) : (channelRead n s).1.governor = s.governor := by
  fun_cases channelRead n s <;> rfl

theorem governor_placeWatch (src : Source) (f : WatchFields) (ch : ChannelId) (idx : Fin 8) (kind : WatchKind)
    (s : State) : (placeWatch src f ch idx kind s).1.governor = s.governor := by
  fun_cases placeWatch src f ch idx kind s <;> rfl

theorem governor_watchSet (src : Source) (f : WatchFields) (s : State) :
    (watchSet src f s).1.governor = s.governor := by
  fun_cases watchSet src f s
  case case3 => exact governor_placeWatch src f _ _ _ s
  all_goals rfl

theorem governor_watchClear (src : Source) (n : Nat) (s : State) :
    (watchClear src n s).1.governor = s.governor := by
  fun_cases watchClear src n s <;> rfl

theorem governor_reactSet (src : Source) (f : ReactFields) (s : State) :
    (reactSet src f s).1.governor = s.governor := by
  fun_cases reactSet src f s <;> rfl

theorem governor_reactClear (src : Source) (n : Nat) (s : State) :
    (reactClear src n s).1.governor = s.governor := by
  fun_cases reactClear src n s <;> rfl

theorem governor_reactRead (x : ReadTarget) (s : State) : (reactRead x s).1.governor = s.governor := by
  fun_cases reactRead x s <;> rfl

theorem governor_windowSet (f : WindowFields) (s : State) : (windowSet f s).1.governor = s.governor := by
  fun_cases windowSet f s <;> rfl

theorem governor_storeWrite (src : Source) (base : Nat) (bytes : List Byte) (s : State) :
    (storeWrite src base bytes s).1.governor = s.governor := by
  fun_cases storeWrite src base bytes s <;> rfl

theorem governor_storeRead (src : Source) (base count : Nat) (s : State) :
    (storeRead src base count s).1.governor = s.governor := by
  fun_cases storeRead src base count s <;> rfl

theorem governor_clipDefine (src : Source) (f : ClipFields) (s : State) :
    (clipDefine src f s).1.governor = s.governor := by
  fun_cases clipDefine src f s <;> rfl

theorem governor_clipRemove (src : Source) (n : Nat) (s : State) :
    (clipRemove src n s).1.governor = s.governor := by
  fun_cases clipRemove src n s <;> rfl

theorem governor_cueSet (src : Source) (f : CueFields) (s : State) : (cueSet src f s).1.governor = s.governor := by
  fun_cases cueSet src f s <;> rfl

theorem governor_cueClear (src : Source) (n : Nat) (s : State) : (cueClear src n s).1.governor = s.governor := by
  fun_cases cueClear src n s <;> rfl

theorem governor_periodExpiry (n : SubId) (s : State) : (periodExpiry n s).governor = s.governor := by
  fun_cases periodExpiry n s <;> rfl

theorem governor_subscribe (src : Source) (f : SubscribeFields) (s : State) :
    (subscribe src f s).1.governor = s.governor := by
  fun_cases subscribe src f s
  case case5 n _ _ _ _ _ => exact governor_periodExpiry n _
  all_goals rfl

theorem governor_unsubscribe (src : Source) (id : Nat) (s : State) :
    (unsubscribe src id s).1.governor = s.governor := by
  fun_cases unsubscribe src id s <;> rfl

theorem governor_markSent (s : State) (x : SentItem) : (markSent s x).governor = s.governor := by
  fun_cases markSent s x <;> rfl

/-! ### The blocks' acts on requests -/

/-- An act of a block keeps the grants within the budget, from every state. -/
def ActKeepsBudget (act : State → State × Reply) : Prop := ∀ s, KeepsBudget s (act s).1

theorem actKeepsBudget_of_governor {act : State → State × Reply} (same : ∀ s, (act s).1.governor = s.governor) :
    ActKeepsBudget act := fun s => .of_governor (same s)

theorem keepsBudget_restartLease (s : State) (r : Resource) : KeepsBudget s (s.restartLease r) :=
  .of_governor (State.setClaim_governor s r _)

theorem keepsBudget_ownerOnly {act : State → State × Reply} (h : ActKeepsBudget act) (r : Resource) (src : Source) :
    ActKeepsBudget (ownerOnly r src act) := fun s => by
  fun_cases ownerOnly r src act s
  case case1 e _ =>
    have kept := h s
    rw [e] at kept
    exact kept.trans (keepsBudget_restartLease _ r)
  case case2 e _ =>
    have kept := h s
    rwa [e] at kept
  case case3 => exact .refl s

theorem keepsBudget_motorRequest {act : MotorId → State → State × Reply} (h : ∀ m, ActKeepsBudget (act m)) (n : Nat)
    (src : Source) : ActKeepsBudget (motorRequest n src act) := fun s => by
  fun_cases motorRequest n src act s
  · exact .refl s
  · exact keepsBudget_ownerOnly (h _) _ src s

theorem keepsBudget_voiceRequest {act : VoiceId → State → State × Reply} (h : ∀ v, ActKeepsBudget (act v)) (n : Nat)
    (src : Source) : ActKeepsBudget (voiceRequest n src act) := fun s => by
  fun_cases voiceRequest n src act s
  · exact .refl s
  · exact keepsBudget_ownerOnly (h _) _ src s

theorem keepsBudget_releaseRequest (src : Source) (set : List Resource) :
    ActKeepsBudget (releaseRequest src set) := fun s => by
  fun_cases releaseRequest src set s
  · exact .refl s
  · exact keepsBudget_of_withClaims (quiet_withClaims_foldl (quiet_endClaimsOf src .released) _ s)

theorem keepsBudget_takeRequest (f : ClaimFields) : ActKeepsBudget (takeRequest f) := fun s => by
  fun_cases takeRequest f s
  · exact .refl s
  · exact keepsBudget_of_withClaims (quiet_withClaims_foldl (quiet_takeOne _) _ s)

theorem keepsBudget_clearFault (m : MotorId) : ActKeepsBudget (clearFault m) := fun s => by
  fun_cases clearFault m s
  · exact keepsBudget_of_steady (quiet_enterRest m .idle s).toSteady
  · exact .refl s

theorem keepsBudget_haltMotor (a : Coded StopAction) (m : MotorId) : ActKeepsBudget (haltMotor a m) := fun s => by
  fun_cases haltMotor a m s
  · exact .refl s
  · exact keepsBudget_of_steady (quiet_afterEvents (quiet_stopAction m _ _ s)).toSteady

/-- R65: a clamped budget lies in its range. -/
theorem clampNat_budget (x : Int) : 500 ≤ clampNat 500 8000 x ∧ clampNat 500 8000 x ≤ 8000 := by
  unfold clampNat
  rw [clampInt_eq (by decide)]
  omega

/-- R65, R66: a budget that covers the grants leaves them alone; one below their sum scales them down to it. -/
theorem keepsBudget_budgetSet (x : Int) : ActKeepsBudget (budgetSet x) := fun s => ⟨fun _ => by
  obtain ⟨low, high⟩ := clampNat_budget x
  show BudgetInv (setBudget (clampNat 500 8000 x) s).1
  rcases Nat.lt_or_ge (clampNat 500 8000 x) s.governor.used with exceeded | covers
  · rw [setBudget_exceeded exceeded, BudgetInv, governor_scaledDown]
    exact ⟨Governor.used_scaled _ _, low, high⟩
  · rw [setBudget_covers covers]
    exact ⟨covers, low, high⟩⟩

theorem keepsBudget_mapSet (f : MapFields) : ActKeepsBudget (mapSet f) := fun s => by
  fun_cases mapSet f s
  case case5 => exact keepsBudget_of_steady (calm_mapChannel _ _ s).toSteady
  all_goals exact .refl s

theorem keepsBudget_mapClear (n : Nat) : ActKeepsBudget (mapClear n) := fun s => by
  have cleared (ch : ChannelId) : KeepsBudget s (clearChannel ch s) :=
    keepsBudget_of_steady (calm_clearChannel ch s).toSteady
  fun_cases mapClear n s
  case case1 => exact .refl s
  case case2 => exact .refl s
  case case3 => exact .refl s
  case case4 ch _ _ => exact keepsBudget_of_steady (calm_channelNotice ch .unmapped .cleared s).toSteady
  all_goals
    dsimp only
    exact cleared _

theorem keepsBudget_playRequest (cue : Nat) (v : VoiceId) : ActKeepsBudget (playRequest cue v) := fun s => by
  fun_cases playRequest cue v s
  · exact .refl s
  · exact .refl s
  · exact keepsBudget_of_steady (quiet_playVoice quiet_react v _ s).toSteady

theorem keepsBudget_stopRequest (o : Coded FadeOption) (v : VoiceId) : ActKeepsBudget (stopRequest o v) := fun s => by
  fun_cases stopRequest o v s
  · exact .refl s
  · exact keepsBudget_of_steady (quiet_stopVoice quiet_react v _ s).toSteady

theorem keepsBudget_voiceGain (level : Int) (v : VoiceId) : ActKeepsBudget (voiceGain level v) := fun s =>
  KeepsBudget.trans (b := s.modVoice v fun vo => { vo with level := clampNat 0 1024 level }) (.of_governor rfl)
    (keepsBudget_ite (keepsBudget_of_steady (quiet_retarget v _).toSteady) (.refl _))

/-- What a block does with a complete frame of kind `k` keeps the grants within the budget. -/
theorem keepsBudget_blockAct (k : RequestKind) (src : Source) (b : List Byte) (i : Fin 8) (s : State) :
    KeepsBudget s (blockAct k src b i s).1 := by
  cases k with
  | ident => exact .refl s
  | reset => exact .of_governor rfl
  | claim => exact .of_governor (governor_claimRequest src _ s)
  | release => exact keepsBudget_releaseRequest src _ s
  | renew => exact .of_governor (governor_renewRequest src _ s)
  | take => exact keepsBudget_takeRequest _ s
  | motorSet => exact keepsBudget_motorRequest (fun m => actKeepsBudget_of_governor (governor_motorSet _ m)) _ src s
  | motorRead => exact .of_governor (governor_motorRead _ s)
  | zero => exact keepsBudget_motorRequest (fun m => actKeepsBudget_of_governor (governor_zeroMotor _ m)) _ src s
  | clearFault => exact keepsBudget_motorRequest keepsBudget_clearFault _ src s
  | seg => exact keepsBudget_motorRequest (fun m => actKeepsBudget_of_governor (governor_segMotor _ m)) _ src s
  | halt => exact keepsBudget_motorRequest (keepsBudget_haltMotor _) _ src s
  | budgetSet => exact keepsBudget_budgetSet _ s
  | budgetRead => exact .refl s
  | chainRestart => exact keepsBudget_of_steady (steady_chainRestart _ _ s)
  | chainSet => exact keepsBudget_of_steady (steady_chainSet _ _ s)
  | chainRead => exact .of_governor (governor_chainRead _ s)
  | moduleRead => exact .of_governor (governor_moduleRead _ _ s)
  | modulePageWrite => exact keepsBudget_of_steady (steady_pageRequest src _ _ _ _ i s)
  | modulePageRead => exact keepsBudget_of_steady (steady_pageRequest src _ _ _ _ i s)
  | mapSet => exact keepsBudget_mapSet _ s
  | mapClear => exact keepsBudget_mapClear _ s
  | channelRead => exact .of_governor (governor_channelRead _ s)
  | watchSet => exact .of_governor (governor_watchSet src _ s)
  | watchClear => exact .of_governor (governor_watchClear src _ s)
  | reactSet => exact .of_governor (governor_reactSet src _ s)
  | reactClear => exact .of_governor (governor_reactClear src _ s)
  | reactRead => exact .of_governor (governor_reactRead _ s)
  | windowSet => exact .of_governor (governor_windowSet _ s)
  | storeWrite => exact .of_governor (governor_storeWrite src _ _ s)
  | storeRead => exact .of_governor (governor_storeRead src _ _ s)
  | clipDefine => exact .of_governor (governor_clipDefine src _ s)
  | clipRemove => exact .of_governor (governor_clipRemove src _ s)
  | cueSet => exact .of_governor (governor_cueSet src _ s)
  | cueClear => exact .of_governor (governor_cueClear src _ s)
  | play => exact keepsBudget_voiceRequest (keepsBudget_playRequest _) _ src s
  | stop => exact keepsBudget_voiceRequest (keepsBudget_stopRequest _) _ src s
  | voiceGain => exact keepsBudget_voiceRequest (keepsBudget_voiceGain _) _ src s
  | masterSet => exact .of_governor rfl
  | subscribe => exact .of_governor (governor_subscribe src _ s)
  | unsubscribe => exact .of_governor (governor_unsubscribe src _ s)

/-! ### Requests and frames -/

theorem keepsBudget_setLink (s : State) (src : Source) (l : LinkUnit) : KeepsBudget s (s.setLink src l) :=
  .of_governor (State.setLink_governor s src l)

theorem keepsBudget_serveLater {act : Fin 8 → State → State × Option Reply} (h : ∀ i s, KeepsBudget s (act i s).1)
    (k : RequestKind) (src : Source) (tag : Byte) (s : State) : KeepsBudget s (serveLater k src tag act s) := by
  have post (t : State) (i : Fin 8) (r : Reply) : KeepsBudget t (t.post src i r) := keepsBudget_setLink t src _
  unfold serveLater
  split
  · split
    · exact .refl s
    · next i _ =>
      have taken := keepsBudget_setLink s src ((s.link src).reserve i ⟨RequestKind.code k, tag⟩)
      refine taken.trans ?_
      dsimp only
      split
      · exact post _ i _
      · have acts := h i (s.setLink src ((s.link src).reserve i ⟨RequestKind.code k, tag⟩))
        split
        · next e => rw [e] at acts; exact acts.trans (post _ i _)
        · next e => rw [e] at acts; exact acts
  · exact .refl s

theorem keepsBudget_serve {act : State → State × Reply} (h : ActKeepsBudget act) (k : RequestKind) (src : Source)
    (tag : Byte) (s : State) : KeepsBudget s (serve k src tag act s) :=
  keepsBudget_serveLater (act := fun _ t => ((act t).1, some (act t).2)) (fun _ => h) k src tag s

theorem keepsBudget_serve_of_governor {act : State → State × Reply} (same : ∀ s, (act s).1.governor = s.governor)
    (k : RequestKind) (src : Source) (tag : Byte) (s : State) : KeepsBudget s (serve k src tag act s) :=
  keepsBudget_serve (actKeepsBudget_of_governor same) k src tag s

theorem keepsBudget_takeUnknown (src : Source) (tag kind : Byte) (s : State) :
    KeepsBudget s (takeUnknown src tag kind s) := by
  fun_cases takeUnknown src tag kind s
  · exact .refl s
  · exact keepsBudget_setLink s src _
  · exact .refl s

theorem keepsBudget_checkedAct (k : RequestKind) (src : Source) (b : List Byte) (i : Fin 8) (s : State) :
    KeepsBudget s (checkedAct k src b i s).1 := by
  fun_cases checkedAct k src b i s
  · exact keepsBudget_blockAct k src b i s
  · exact .refl s

theorem keepsBudget_takeFrame (src : Source) (kind tag : Byte) (body : List Byte) (s : State) :
    KeepsBudget s (takeFrame src kind tag body s) := by
  fun_cases takeFrame src kind tag body s
  · exact keepsBudget_takeUnknown src tag kind s
  · exact keepsBudget_serveLater (keepsBudget_checkedAct _ src body) _ src tag s

theorem keepsBudget_checkFrame (link : Source) (len : Byte) (got : List Byte) (check : Byte) (s : State) :
    KeepsBudget s (checkFrame link len got check s) := by
  fun_cases checkFrame link len got check s
  · exact keepsBudget_takeFrame link _ _ _ s
  · exact .refl s
  · exact .refl s

theorem keepsBudget_assemble (link : Source) (b : Byte) (s : State) : KeepsBudget s (assemble link b s) := by
  fun_cases assemble link b s
  · exact keepsBudget_setLink s link _
  · exact .refl s
  · exact keepsBudget_setLink s link _
  · exact keepsBudget_setLink s link _
  · exact (keepsBudget_setLink s link _).trans (keepsBudget_checkFrame link _ _ b _)

theorem keepsBudget_sendTelemetry (link : Source) (s : State) : KeepsBudget s (sendTelemetry link s) :=
  KeepsBudget.trans (.of_governor (foldl_keeps governor_markSent _ s)) (keepsBudget_setLink _ link _)

theorem keepsBudget_chooseFrame (link : Source) (s : State) : KeepsBudget s (chooseFrame link s) := by
  fun_cases chooseFrame link s
  · exact keepsBudget_setLink s link _
  · exact keepsBudget_sendTelemetry link s
  · exact keepsBudget_setLink s link _
  · exact .refl s
  · exact keepsBudget_sendTelemetry link s

/-! ### Resets and LINK_UP -/

theorem governor_placeBoth (s : State) (b : NoticeBody) : (s.placeBoth b).governor = s.governor :=
  (State.place_governor _ .tablet b).trans (State.place_governor s .program b)

theorem governor_started (cause : StartCause) (s : State) : (started cause s).governor = s.governor :=
  governor_placeBoth s _

theorem governor_powerOn (s : State) : (powerOn s).governor = Governor.reset :=
  governor_started .powerOn (State.reset.withPins s)

/-- R59, R157: what soft reset keeps lies beside the governor. -/
theorem governor_softReset (s : State) : (softReset s).governor = Governor.reset :=
  (governor_started _ _).trans (foldl_keeps (get := State.governor) (f := fun t n => freeClip n t)
    (fun _ _ => rfl) allClips { State.reset.withPins s with
      store := s.store, windows := s.windows, clips := s.clips, cues := s.cues })

theorem keepsBudget_frameSent (link : Source) (s : State) : KeepsBudget s (frameSent link s) := by
  fun_cases frameSent link s
  · exact .refl s
  · exact keepsBudget_of_reset (governor_softReset _) s
  · exact keepsBudget_setLink s link _

/-- R166: the fall of LINK_UP ends the claims of TABLET, and its other steps leave the governor alone. -/
theorem keepsBudget_linkUpFall (s : State) : KeepsBudget s (linkUpFall s) := by
  have dropped : KeepsBudget s (tabletDropped s) := .of_governor (by rw [sameBesideTables_tabletDropped s]; rfl)
  have ended : KeepsBudget (tabletDropped s) (allResources.foldl (endClaimsOf .tablet .linkDown) (tabletDropped s)) :=
    keepsBudget_of_withClaims (quiet_withClaims_foldl (quiet_endClaimsOf .tablet .linkDown) allResources _)
  rw [linkUpFall_eq]
  generalize allResources.foldl (endClaimsOf .tablet .linkDown) (tabletDropped s) = u at ended ⊢
  exact (dropped.trans ended).trans (.of_governor rfl)

theorem governor_linkUpRise (s : State) : (linkUpRise s).governor = s.governor :=
  State.place_governor { s with linkUp := true, tablet := LinkUnit.reset s.tablet } .tablet _

theorem governor_idle (s : State) : (idle s).governor = s.governor :=
  calc (idle s).governor
    _ = (passChains (passClaims { s with time := s.time + 1 })).governor := foldl_keeps (fun _ _ => rfl) allSubs _
    _ = (passClaims { s with time := s.time + 1 }).governor := foldl_keeps (fun _ _ => rfl) allPorts _
    _ = s.governor := foldl_keeps (fun t r => State.setClaim_governor t r _) allResources _

/-! ### One command -/

theorem governor_execReadyInChange (link : Source) (high : Bool) (s : State) :
    ∃ t, execReadyInChange link high s = .next t ∧ t.governor = s.governor := by
  refine ⟨_, rfl, ?_⟩
  split
  · exact State.setLink_governor s link _
  · exact State.setLink_governor s link _

theorem keepsBudget_expireDuration (m : MotorId) (s : State) : KeepsBudget s (expireDuration m s) := by
  fun_cases expireDuration m s
  · exact .refl s
  · exact keepsBudget_of_steady ((quiet_modMotor s m _).trans (quiet_afterEvents (quiet_durationExpired m _))).toSteady
  · exact .refl s

theorem keepsBudget_outputSample (s : State) : KeepsBudget s (outputSample react s) := by
  obtain ⟨x, quiet⟩ := quiet_outputSample s
  exact KeepsBudget.trans (b := { s with aout := x }) (.of_governor rfl) (keepsBudget_of_steady quiet.toSteady)

/-- The state that an outcome leads to, if any, keeps the grants within the budget. -/
def NextKeepsBudget (s : State) : Out → Prop
  | .next t => KeepsBudget s t
  | .fault _ => True
  | .refused _ => True

theorem NextKeepsBudget.since {r s : State} {o : Out} (h : KeepsBudget r s) (k : NextKeepsBudget s o) :
    NextKeepsBudget r o := by
  cases o with
  | next t => exact h.trans k
  | fault f => trivial
  | refused r => trivial

/-- R60, R65, R66: every command keeps the grants within the budget, and the budget within its range. -/
theorem exec_keepsBudget (c : Instr) (s : State) : NextKeepsBudget s (exec c s) := by
  cases c with
  | powerOn => exact keepsBudget_of_reset (governor_powerOn s) s
  | softReset => exact keepsBudget_of_reset (governor_softReset s) s
  | linkUpFall => exact keepsBudget_ite (keepsBudget_linkUpFall s) (.refl s)
  | linkUpRise => exact keepsBudget_ite (.refl s) (.of_governor (governor_linkUpRise s))
  | readyInChange link high =>
    obtain ⟨t, next, same⟩ := governor_execReadyInChange link high s
    show NextKeepsBudget s (execReadyInChange link high s)
    rw [next]
    exact .of_governor same
  | frameByteTimeout link => exact keepsBudget_setLink s link _
  | unknownKind src tag kind => exact keepsBudget_ite (.refl s) (keepsBudget_takeUnknown src tag kind s)
  | frameStart link => exact keepsBudget_ite (keepsBudget_chooseFrame link s) (.refl s)
  | frameSent link => exact keepsBudget_ite (.refl s) (keepsBudget_frameSent link s)
  | ident src tag => exact keepsBudget_serve_of_governor (fun _ => rfl) _ src tag s
  | reset src tag => exact keepsBudget_serve_of_governor (fun _ => rfl) _ src tag s
  | claim src tag f => exact keepsBudget_serve_of_governor (governor_claimRequest src f) _ src tag s
  | release src tag set => exact keepsBudget_serve (keepsBudget_releaseRequest src set) _ src tag s
  | renew src tag set => exact keepsBudget_serve_of_governor (governor_renewRequest src set) _ src tag s
  | take src tag f => exact keepsBudget_serve (keepsBudget_takeRequest f) _ src tag s
  | leaseExpiry r => exact keepsBudget_ite (keepsBudget_of_withClaims (quiet_endClaim r _ _ s)) (.refl s)
  | motorSet src tag n f =>
    exact keepsBudget_serve
      (keepsBudget_motorRequest (fun m => actKeepsBudget_of_governor (governor_motorSet f m)) n src) _ src tag s
  | motorRead src tag n => exact keepsBudget_serve_of_governor (governor_motorRead n) _ src tag s
  | zero src tag n x =>
    exact keepsBudget_serve
      (keepsBudget_motorRequest (fun m => actKeepsBudget_of_governor (governor_zeroMotor x m)) n src) _ src tag s
  | clearFault src tag n => exact keepsBudget_serve (keepsBudget_motorRequest keepsBudget_clearFault n src) _ src tag s
  | seg src tag n r =>
    exact keepsBudget_serve
      (keepsBudget_motorRequest (fun m => actKeepsBudget_of_governor (governor_segMotor r m)) n src) _ src tag s
  | halt src tag n a => exact keepsBudget_serve (keepsBudget_motorRequest (keepsBudget_haltMotor a) n src) _ src tag s
  | encoderStep m a b => exact .of_governor rfl
  | controlTick m i => exact keepsBudget_of_steady (quiet_afterEvents (quiet_controlTick m i s)).toSteady
  | trip m =>
    exact keepsBudget_ite (keepsBudget_of_steady (quiet_afterEvents (quiet_takeTrip m s)).toSteady) (.refl s)
  | durationExpiry m => exact keepsBudget_expireDuration m s
  | stall m =>
    exact keepsBudget_ite (keepsBudget_of_steady (quiet_afterEvents (quiet_takeStall m s)).toSteady) (.refl s)
  | budgetSet src tag b => exact keepsBudget_serve (keepsBudget_budgetSet b) _ src tag s
  | budgetRead src tag => exact keepsBudget_serve_of_governor (fun _ => rfl) _ src tag s
  | chainRestart src tag port o =>
    exact keepsBudget_serve (fun t => keepsBudget_of_steady (steady_chainRestart port o t)) _ src tag s
  | chainSet src tag port f =>
    exact keepsBudget_serve (fun t => keepsBudget_of_steady (steady_chainSet port f t)) _ src tag s
  | chainRead src tag port => exact keepsBudget_serve_of_governor (governor_chainRead port) _ src tag s
  | moduleRead src tag port pos => exact keepsBudget_serve_of_governor (governor_moduleRead port pos) _ src tag s
  | modulePageWrite src tag port pos page b =>
    exact keepsBudget_serveLater
      (fun i t => keepsBudget_of_steady (steady_pageRequest src port pos page (some b) i t)) _ src tag s
  | modulePageRead src tag port pos page =>
    exact keepsBudget_serveLater
      (fun i t => keepsBudget_of_steady (steady_pageRequest src port pos page none i t)) _ src tag s
  | resetRestExpiry p => exact keepsBudget_of_steady (steady_restExpiry p s)
  | trainRetryTimer p => exact keepsBudget_of_steady (steady_trainRetry p s)
  | emptyProbeTimer p => exact keepsBudget_of_steady (steady_probeExpiry p s)
  | faultRetryTimer p => exact keepsBudget_of_steady (steady_faultRetry p s)
  | syncTimerExpiry p => exact keepsBudget_of_steady (steady_syncExpiry p s)
  | callSent p => exact keepsBudget_of_steady (steady_callSent p s)
  | transactionEnd p a b => exact keepsBudget_of_steady (steady_answersHeard p false a b s)
  | answerTimeout p a b => exact keepsBudget_of_steady (steady_answersHeard p true a b s)
  | missesAbsent p k => exact keepsBudget_of_steady (steady_missesAbsent p k s)
  | settleExpiry p k => exact keepsBudget_of_steady (steady_settleExpiry p k s)
  | staleDeadline ch => exact keepsBudget_ite (.of_governor rfl) (.refl s)
  | mapSet src tag f => exact keepsBudget_serve (keepsBudget_mapSet f) _ src tag s
  | mapClear src tag n => exact keepsBudget_serve (keepsBudget_mapClear n) _ src tag s
  | channelRead src tag n => exact keepsBudget_serve_of_governor (governor_channelRead n) _ src tag s
  | watchSet src tag f => exact keepsBudget_serve_of_governor (governor_watchSet src f) _ src tag s
  | watchClear src tag n => exact keepsBudget_serve_of_governor (governor_watchClear src n) _ src tag s
  | reactSet src tag f => exact keepsBudget_serve_of_governor (governor_reactSet src f) _ src tag s
  | reactClear src tag n => exact keepsBudget_serve_of_governor (governor_reactClear src n) _ src tag s
  | reactRead src tag x => exact keepsBudget_serve_of_governor (governor_reactRead x) _ src tag s
  | windowSet src tag f => exact keepsBudget_serve_of_governor (governor_windowSet f) _ src tag s
  | storeWrite src tag o b => exact keepsBudget_serve_of_governor (governor_storeWrite src o b) _ src tag s
  | storeRead src tag o n => exact keepsBudget_serve_of_governor (governor_storeRead src o n) _ src tag s
  | clipDefine src tag f => exact keepsBudget_serve_of_governor (governor_clipDefine src f) _ src tag s
  | clipRemove src tag n => exact keepsBudget_serve_of_governor (governor_clipRemove src n) _ src tag s
  | cueSet src tag f => exact keepsBudget_serve_of_governor (governor_cueSet src f) _ src tag s
  | cueClear src tag n => exact keepsBudget_serve_of_governor (governor_cueClear src n) _ src tag s
  | play src tag v c => exact keepsBudget_serve (keepsBudget_voiceRequest (keepsBudget_playRequest c) v src) _ src tag s
  | stop src tag v o => exact keepsBudget_serve (keepsBudget_voiceRequest (keepsBudget_stopRequest o) v src) _ src tag s
  | voiceGain src tag v x =>
    exact keepsBudget_serve (keepsBudget_voiceRequest (keepsBudget_voiceGain x) v src) _ src tag s
  | masterSet src tag x => exact keepsBudget_serve_of_governor (fun _ => rfl) _ src tag s
  | outputSample => exact keepsBudget_outputSample s
  | subscribe src tag f => exact keepsBudget_serve_of_governor (governor_subscribe src f) _ src tag s
  | unsubscribe src tag n => exact keepsBudget_serve_of_governor (governor_unsubscribe src n) _ src tag s
  | periodExpiry n => exact .of_governor (governor_periodExpiry n s)
  | byteReceived link b => exact keepsBudget_ite (.refl s) (keepsBudget_assemble link b s)
  | carrierPeriod => exact .of_governor rfl

/-- One step, a command or an idle millisecond, keeps the grants within the budget. -/
theorem step_keepsBudget (s : State) : NextKeepsBudget s (step s) := by
  fun_cases step s
  · exact KeepsBudget.of_governor (governor_idle s)
  · next c rest _ => exact .since (s := { s with pending := rest }) (.of_governor rfl) (exec_keepsBudget c _)

/-- Settles O57: every step keeps the sum of the grants within the budget, and the budget within its range. -/
theorem budgetInvKept : Obligations.BudgetInvKept := by
  intro s t inv run
  have keeps := step_keepsBudget s
  rw [run] at keeps
  exact keeps.inv inv

end Sys2Proof.Machine

namespace Sys2Proof.Machine

open Sys2Proof.Safety

/-! ### Updates of one voice -/

theorem State.setVoice_setVoice (s : State) (v : VoiceId) (x y : Voice) :
    (s.setVoice v x).setVoice v y = s.setVoice v y := by
  simp [State.setVoice]

theorem State.modVoice_eq (s : State) (v : VoiceId) (f : Voice → Voice) :
    s.modVoice v f = s.setVoice v (f (s.voice v)) := rfl

/-! ### The ask of a PLAYING voice (R62) -/

/-- R62: the voice `vo` after its ask for a target: its ceiling is what the answer pays for. -/
def askedRecord (v : VoiceId) (vo : Voice) (target : Nat) (u : State) : Voice :=
  let ask := target * 120 / 1024
  let grant := ((u.askSupply (.voice v) ask).governor.supply (.voice v)).grant
  { vo with target := target, ceiling := if grant = ask then target else grant * 1024 / 120 }

/-- R62: the voice `vo` in the place of voice `v`, having asked for a target. -/
def askedVoice (v : VoiceId) (vo : Voice) (target : Nat) (u : State) : State :=
  (u.askSupply (.voice v) (target * 120 / 1024)).setVoice v (askedRecord v vo target u)

/-- R62, R145, R149: the ask of a voice with a cue. -/
theorem retarget_eq {v : VoiceId} {s : State} {c : CueCopy} (h : (s.voice v).cue = some c) :
    retarget v s = askedVoice v (s.voice v) (cueGain c.body * (s.voice v).level / 1024) s := by
  fun_cases retarget v s
  · next none => cases none.symm.trans h
  · next d some _ _ =>
    cases some.symm.trans h
    rfl

/-- What stood in the voice's place before is not read. -/
theorem askedVoice_setVoice (v : VoiceId) (vo x : Voice) (target : Nat) (u : State) :
    askedVoice v vo target (u.setVoice v x) = askedVoice v vo target u :=
  State.setVoice_setVoice (u.askSupply (.voice v) _) v x _

theorem voice_askedVoice (v : VoiceId) (vo : Voice) (target : Nat) (u : State) :
    (askedVoice v vo target u).voice v = askedRecord v vo target u :=
  State.voice_setVoice_self (u.askSupply (.voice v) _) v _

theorem askedRecord_reserved (v : VoiceId) (vo : Voice) (target : Nat) (s : State) (src : Source) (i : Fin 8)
    (kind tag : Byte) : askedRecord v vo target (reserved s src i kind tag) = askedRecord v vo target s := by
  cases src <;> rfl

theorem askedVoice_reserved (v : VoiceId) (vo : Voice) (target : Nat) (s : State) (src : Source) (i : Fin 8)
    (kind tag : Byte) :
    askedVoice v vo target (reserved s src i kind tag) = reserved (askedVoice v vo target s) src i kind tag := by
  cases src <;> rfl

/-! ### Voice requests of the owner (R163, R167) -/

section Request

variable {s : State} {src : Source} {i : Fin 8} (h : Accepts s src i) {k : RequestKind}
  (any : RequestKind.programOnly k = false) (tag : Byte) {v : VoiceId} (own : s.owner (.voice v) = some src)
  {act : VoiceId → State → State × Reply}
include h any own

theorem serve_voice_refused {st : Status} (bad : st ≠ .ok)
    (e : ∀ t, t = reserved s src i (RequestKind.code k) tag → act v t = (t, Reply.refuse st)) :
    serve k src tag (voiceRequest v.val src act) s =
      answered s src i (RequestKind.code k) tag (Reply.refuse st) :=
  serve_unchanged h any tag fun t r => by
    unfold voiceRequest
    rw [index_val]
    exact ownerOnly_refused (by rwa [r, reserved_owner]) (e t r) bad

/-- R163, R179: an accepted request of a voice's owner: the lease restarts, and the reply is made waiting. -/
theorem serve_voice_owned {t : State} {clamped : Bool} {body : ReplyBody}
    (e : act v (reserved s src i (RequestKind.code k) tag) = (t, Reply.ok clamped body)) :
    serve k src tag (voiceRequest v.val src act) s =
      (t.restartLease (.voice v)).post src i (Reply.ok clamped body) := by
  rw [serve_accepted h k tag _ fun only => absurd (any.symm.trans only) (by decide)]
  unfold voiceRequest
  rw [index_val]
  dsimp only
  rw [ownerOnly_accepted (by rwa [reserved_owner]) e]

/-- R163, R179: an accepted request that leaves the links alone: `t` is what it makes of the state. -/
theorem serve_voice_accepted {t : State} {clamped : Bool} {body : ReplyBody}
    (e : act v (reserved s src i (RequestKind.code k) tag) =
      (reserved t src i (RequestKind.code k) tag, Reply.ok clamped body)) :
    serve k src tag (voiceRequest v.val src act) s =
      answered (t.restartLease (.voice v)) src i (RequestKind.code k) tag (Reply.ok clamped body) := by
  rw [serve_voice_owned h any tag own e, reserved_restartLease, post_reserved_eq_answered]

end Request

/-! ### VOICE_GAIN and MASTER_SET (R149, R155) -/

theorem clampNat_level (x : Int) : clampNat 0 1024 x = (max 0 (min 1024 x)).toNat :=
  congrArg Int.toNat (clampInt_eq (by decide) x)

theorem outOfRange_level (x : Int) : outOfRange 0 1024 x = decide (x < 0 ∨ 1024 < x) := by
  rw [Bool.eq_iff_iff, outOfRange_iff, decide_eq_true_iff]

/-- R149: in IDLE and FADING only the level changes. -/
theorem voiceGain_silent {v : VoiceId} {s : State} (h : (s.voice v).state ≠ .playing) (x : Int) :
    voiceGain x v s =
      (s.setVoice v { s.voice v with level := clampNat 0 1024 x },
        Reply.ok (outOfRange 0 1024 x)
          (.voiceGain (clampNat 0 1024 x) (s.voice v).target (s.voice v).ceiling (s.voice v).state)) := by
  unfold voiceGain
  dsimp only
  rw [if_neg h, State.modVoice_eq, State.voice_setVoice_self]

/-- R149, R62: in PLAYING the voice asks by its new level. -/
theorem voiceGain_playing {v : VoiceId} {s : State} {c : CueCopy} (h : (s.voice v).state = .playing)
    (cue : (s.voice v).cue = some c) (x : Int) :
    let louder := { s.voice v with level := clampNat 0 1024 x }
    let target := cueGain c.body * clampNat 0 1024 x / 1024
    let y := askedRecord v louder target s
    voiceGain x v s =
      (askedVoice v louder target s,
        Reply.ok (outOfRange 0 1024 x) (.voiceGain y.level y.target y.ceiling y.state)) := by
  unfold voiceGain
  dsimp only
  rw [if_pos h, State.modVoice_eq, retarget_eq (c := c) (by rw [State.voice_setVoice_self]; exact cue),
    State.voice_setVoice_self, askedVoice_setVoice, voice_askedVoice]

/-- Settles O53: VOICE_GAIN by whether the voice is PLAYING, and MASTER_SET. -/
theorem levelsAreSet : Obligations.LevelsAreSet := by
  unfold Obligations.LevelsAreSet
  refine ⟨fun s src i tag v x h own => ⟨fun silent => ?_, fun cue playing some => ?_⟩, fun s i tag x h => ?_⟩
  · rw [← clampNat_level, ← outOfRange_level]
    refine next_congr (serve_voice_accepted h (k := .voiceGain) rfl tag own ?_)
    rw [voiceGain_silent (by rwa [reserved_voice]), reserved_voice, reserved_setVoice]
  · rw [← clampNat_level, ← outOfRange_level]
    refine next_congr (serve_voice_accepted h (k := .voiceGain) rfl tag own ?_)
    rw [voiceGain_playing (c := cue) (by rwa [reserved_voice]) (by rwa [reserved_voice]), reserved_voice,
      askedVoice_reserved, askedRecord_reserved, ← playing]
    rfl
  · rw [← clampNat_level, ← outOfRange_level]
    refine next_congr (serve_answered h .masterSet tag (fun _ => rfl) ?_)
    rfl

end Sys2Proof.Machine

namespace Sys2Proof.Machine

open Sys2Proof.Safety

/-! ### Clips held and released (R141, R145) -/

theorem releaseClip_of_none {v : VoiceId} {s : State} (h : heldClip (s.voice v) = none) : releaseClip v s = s := by
  unfold releaseClip
  rw [h]

/-- R141: a release depends on the voice's cue alone. -/
theorem releaseClip_setVoice {v : VoiceId} {s : State} {x : Voice} (same : x.cue = (s.voice v).cue) :
    releaseClip v (s.setVoice v x) = (releaseClip v s).setVoice v x := by
  have held : heldClip x = heldClip (s.voice v) := by
    unfold heldClip
    rw [same]
  unfold releaseClip
  rw [State.voice_setVoice_self, held]
  cases heldClip (s.voice v) with
  | none => rfl
  | some c =>
    show changeUse c (· - 1) (s.setVoice v x) = (changeUse c (· - 1) s).setVoice v x
    unfold changeUse
    show (match s.clip c with | some y => _ | none => _) = _
    cases s.clip c <;> rfl

theorem changeUse_of_some {s : State} {k : ClipId} {c : Clip} (h : s.clip k = some c) (f : Nat → Nat) :
    changeUse k f s = s.setClip k (some { c with inUse := f c.inUse }) := by
  unfold changeUse
  rw [h]

theorem cue_releaseClip (v : VoiceId) (s : State) (n : CueId) : (releaseClip v s).cue n = s.cue n := by
  rw [releaseClip_eq]
  rfl

theorem ownerLink_releaseClip (v : VoiceId) (s : State) (r : Resource) :
    (releaseClip v s).ownerLink r = s.ownerLink r := by
  rw [releaseClip_eq]
  cases r <;> rfl

/-! ### The region of a CLIP cue (R145) -/

theorem sampleSize_eq (f : ClipFormat) : sampleSize f = if f = .pcm16At16k then 2 else 1 := by
  cases f <;> rfl

/-- R145: how much of a clip a CLIP cue names: from its start to the end of the clip, or its length of that. -/
def regionLength (c : Clip) (start len : Nat) : Nat :=
  if len = 0 then c.length - start else min len (c.length - start)

theorem regionOf_short {c : Clip} {start len : Nat}
    (h : regionLength c start len < if c.format = .pcm16At16k then 2 else 1) : regionOf c start len = none := by
  rw [← sampleSize_eq] at h
  exact if_pos h

theorem regionOf_whole {c : Clip} {start len : Nat}
    (h : (if c.format = .pcm16At16k then 2 else 1) ≤ regionLength c start len) :
    regionOf c start len = some ⟨c.base, c.format, c.base + start, regionLength c start len⟩ := by
  rw [← sampleSize_eq] at h
  exact if_neg (Nat.not_lt.2 h)

/-! ### The cue fetch (R145) -/

/-- R145: the state of a fetch once the clip held is released and the ended cue is gone. -/
def uncued (v : VoiceId) (s : State) : State :=
  (releaseClip v s).setVoice v { s.voice v with cue := none, cueEntry := none }

theorem fetch_begins (v : VoiceId) (s : State) :
    ((releaseClip v s).modVoice v fun vo => { vo with cue := none, cueEntry := none }) = uncued v s := by
  rw [State.modVoice_eq, releaseClip_voice]
  rfl

/-- R145, R156: what is reported of a voice that a fetch ends: in FADING the fade's end. -/
def fetchReport (v : VoiceId) (reason : VoiceEndReason) (s : State) : VoiceReport :=
  if (s.voice v).state = .fading then
    ⟨v, (s.voice v).fadeReason.getD .stopped, (s.voice v).fadeLink.getD .program, none, none⟩
  else ⟨v, reason, s.ownerLink (.voice v), none, none⟩

/-- R150: the voice ended, its grant released. -/
def quieted (v : VoiceId) (vo : Voice) (u : State) : State :=
  (u.setVoice v (quietVoice vo)).releaseSupply (.voice v)

theorem quieted_setVoice (v : VoiceId) (vo x : Voice) (u : State) :
    quieted v vo (u.setVoice v x) = quieted v vo u := by
  unfold quieted
  rw [State.setVoice_setVoice]

/-- R145, R150: a fetch that ends the voice. -/
theorem endAtFetch_uncued (v : VoiceId) (reason : VoiceEndReason) (s : State) :
    endAtFetch v reason (uncued v s) = (quieted v (s.voice v) (releaseClip v s), some (fetchReport v reason s)) := by
  have voice : (uncued v s).voice v = { s.voice v with cue := none, cueEntry := none } :=
    State.voice_setVoice_self _ v _
  have released : releaseClip v (uncued v s) = uncued v s := releaseClip_of_none (by rw [voice]; rfl)
  have closed (r : VoiceEndReason) (l : Source) : closeVoice v r l (uncued v s) =
      (quieted v (s.voice v) (releaseClip v s), ⟨v, r, l, none, none⟩) := by
    rw [closeVoice_eq, released, voice]
    exact congrArg (·, _) (quieted_setVoice v (s.voice v) _ (releaseClip v s))
  have link : (uncued v s).ownerLink (.voice v) = s.ownerLink (.voice v) := ownerLink_releaseClip v s (.voice v)
  unfold endAtFetch endFade endVoice fetchReport
  rw [voice, link]
  dsimp only
  rw [closed, closed]
  split <;> rfl

/-- R145: the voice `vo` with a cue at its first sample. -/
def cuedVoice (n : CueId) (copy : CueCopy) (position : Nat) (rep : Repeats) (vo : Voice) : Voice :=
  { vo with cueEntry := some n, cue := some copy, position := position, half := false, repeats := rep }

/-- R145, R62: a cue taken by a PLAYING voice, which asks for current. -/
theorem takeCue_playing {v : VoiceId} {s : State} (h : (s.voice v).state = .playing) (n : CueId) (copy : CueCopy)
    (position : Nat) (rep : Repeats) :
    takeCue v n copy position rep s =
      askedVoice v (cuedVoice n copy position rep (s.voice v)) (cueGain copy.body * (s.voice v).level / 1024) s := by
  unfold takeCue
  dsimp only
  rw [if_pos h, State.modVoice_eq, retarget_eq (c := copy) (by rw [State.voice_setVoice_self]),
    State.voice_setVoice_self, askedVoice_setVoice]
  rfl

theorem takeCue_fading {v : VoiceId} {s : State} (h : (s.voice v).state ≠ .playing) (n : CueId) (copy : CueCopy)
    (position : Nat) (rep : Repeats) :
    takeCue v n copy position rep s = s.setVoice v (cuedVoice n copy position rep (s.voice v)) := if_neg h

/-- R145: a cue taken after the fetch began: `u` is the state beside the voice. -/
def takenBy (v : VoiceId) (vo : Voice) (gain : Nat) (u : State) : State :=
  if vo.state = .playing then askedVoice v vo (gain * vo.level / 1024) u else u.setVoice v vo

theorem takeCue_setVoice (v : VoiceId) (n : CueId) (copy : CueCopy) (position : Nat) (rep : Repeats) (vo : Voice)
    (u : State) :
    takeCue v n copy position rep (u.setVoice v { vo with cue := none, cueEntry := none }) =
      takenBy v (cuedVoice n copy position rep vo) (cueGain copy.body) u := by
  unfold takenBy
  by_cases h : vo.state = .playing
  · rw [takeCue_playing (by rwa [State.voice_setVoice_self]), State.voice_setVoice_self, askedVoice_setVoice]
    exact (if_pos h).symm
  · rw [takeCue_fading (by rwa [State.voice_setVoice_self]), State.voice_setVoice_self, State.setVoice_setVoice]
    exact (if_neg h).symm

theorem takeCue_uncued (v : VoiceId) (n : CueId) (copy : CueCopy) (position : Nat) (rep : Repeats) (s : State) :
    takeCue v n copy position rep (uncued v s) =
      takenBy v (cuedVoice n copy position rep (s.voice v)) (cueGain copy.body) (releaseClip v s) :=
  takeCue_setVoice v n copy position rep (s.voice v) (releaseClip v s)

/-- R141, R145: a CLIP cue taken, its clip held once more. -/
theorem takeCue_changeUse {v : VoiceId} {s : State} {k : ClipId} {c : Clip} (h : (releaseClip v s).clip k = some c)
    (n : CueId) (copy : CueCopy) (position : Nat) (rep : Repeats) :
    takeCue v n copy position rep (changeUse k (· + 1) (uncued v s)) =
      takenBy v (cuedVoice n copy position rep (s.voice v)) (cueGain copy.body)
        ((releaseClip v s).setClip k (some { c with inUse := c.inUse + 1 })) := by
  rw [changeUse_of_some (show (uncued v s).clip k = some c from h)]
  exact takeCue_setVoice v n copy position rep (s.voice v)
    ((releaseClip v s).setClip k (some { c with inUse := c.inUse + 1 }))

theorem cue_uncued (v : VoiceId) (s : State) (n : CueId) : (uncued v s).cue n = s.cue n := cue_releaseClip v s n

theorem clip_uncued (v : VoiceId) (s : State) (k : ClipId) : (uncued v s).clip k = (releaseClip v s).clip k := rfl

theorem fetchCue_finish (v : VoiceId) (s : State) :
    fetchCue v .finish s = (quieted v (s.voice v) (releaseClip v s), some (fetchReport v .finished s)) := by
  simp only [fetchCue, fetch_begins, endAtFetch_uncued]

theorem fetchCue_empty {s : State} {n : CueId} (h : s.cue n = none) (v : VoiceId) :
    fetchCue v (.entry n) s = (quieted v (s.voice v) (releaseClip v s), some (fetchReport v .brokenList s)) := by
  simp only [fetchCue, fetch_begins, cue_uncued, h, endAtFetch_uncued]

section Entry

variable {s : State} {n : CueId} {cue : Cue} (entry : s.cue n = some cue) (v : VoiceId)
include entry

theorem fetchCue_tone {frequency duration : Nat} {wave : Wave} {gain : Nat}
    (body : cue.body = .tone frequency duration wave gain) :
    fetchCue v (.entry n) s =
      (takenBy v (cuedVoice n ⟨cue.body, cue.next, none⟩ (duration * 16) (.left 0) (s.voice v)) gain
        (releaseClip v s), none) := by
  simp only [fetchCue, fetch_begins, cue_uncued, entry, body, takeCue_uncued, cueGain]

theorem fetchCue_silence {duration : Nat} (body : cue.body = .silence duration) :
    fetchCue v (.entry n) s =
      (takenBy v (cuedVoice n ⟨cue.body, cue.next, none⟩ (duration * 16) (.left 0) (s.voice v)) 0
        (releaseClip v s), none) := by
  simp only [fetchCue, fetch_begins, cue_uncued, entry, body, takeCue_uncued, cueGain]

variable {k : ClipId} {start len rep gain : Nat} (body : cue.body = .clip k start len rep gain)
include body

theorem fetchCue_noClip (gone : (releaseClip v s).clip k = none) :
    fetchCue v (.entry n) s = (quieted v (s.voice v) (releaseClip v s), some (fetchReport v .badClip s)) := by
  simp only [fetchCue, fetch_begins, cue_uncued, entry, body, clip_uncued, gone, endAtFetch_uncued]

theorem fetchCue_short {c : Clip} (clip : (releaseClip v s).clip k = some c) (short : regionOf c start len = none) :
    fetchCue v (.entry n) s = (quieted v (s.voice v) (releaseClip v s), some (fetchReport v .badClip s)) := by
  simp only [fetchCue, fetch_begins, cue_uncued, entry, body, clip_uncued, clip, short, endAtFetch_uncued]

theorem fetchCue_clip {c : Clip} (clip : (releaseClip v s).clip k = some c) {region : Region}
    (whole : regionOf c start len = some region) :
    fetchCue v (.entry n) s =
      (takenBy v (cuedVoice n ⟨cue.body, cue.next, some region⟩ 0 (repeatsOf rep) (s.voice v)) gain
        ((releaseClip v s).setClip k (some { c with inUse := c.inUse + 1 })), none) := by
  simp only [fetchCue, fetch_begins, cue_uncued, entry, body, clip_uncued, clip, whole, takeCue_changeUse clip, cueGain]

end Entry

end Sys2Proof.Machine

namespace Sys2Proof.Machine

open Sys2Proof.Safety

/-! ### The ramp and the cue of one voice in an output sample (R146, R151 to R153) -/

/-- R151: the voice after its ramp step. -/
def rampedVoice (vo : Voice) : Voice := { vo with gain := rampGain vo.gain vo.target }

/-- R151: the voice is served a sample: it plays, or fades with gain left. -/
def Sounds (vo : Voice) : Prop := vo.state = .playing ∨ (vo.state = .fading ∧ rampGain vo.gain vo.target ≠ 0)

theorem Sounds.not_idle {vo : Voice} (h : Sounds vo) : vo.state ≠ .idle := by
  rcases h with playing | ⟨fading, _⟩
  · rw [playing]; decide
  · rw [fading]; decide

theorem Sounds.not_faded {vo : Voice} (h : Sounds vo) :
    ¬(vo.state = .fading ∧ rampGain vo.gain vo.target = 0) := by
  rintro ⟨fading, silent⟩
  rcases h with playing | ⟨_, left⟩
  · cases playing.symm.trans fading
  · exact left silent

theorem rawSample_tone {vo : Voice} {frequency duration : Nat} {wave : Wave} {gain : Nat} {next : NextCue}
    {region : Option Region} (h : vo.cue = some ⟨.tone frequency duration wave gain, next, region⟩) (s : State) :
    rawSample s vo = toneSample wave vo.phase := by
  unfold rawSample
  rw [h]

theorem rawSample_silence {vo : Voice} {duration : Nat} {next : NextCue} {region : Option Region}
    (h : vo.cue = some ⟨.silence duration, next, region⟩) (s : State) : rawSample s vo = 0 := by
  unfold rawSample
  rw [h]

theorem rawSample_clip {vo : Voice} {clip : ClipId} {start len rep gain : Nat} {next : NextCue} {r : Region}
    (h : vo.cue = some ⟨.clip clip start len rep gain, next, some r⟩) (s : State) :
    rawSample s vo = clipSample s r vo.position := by
  unfold rawSample
  rw [h]

theorem advanceCue_tone {vo : Voice} {frequency duration : Nat} {wave : Wave} {gain : Nat} {next : NextCue}
    {region : Option Region} (h : vo.cue = some ⟨.tone frequency duration wave gain, next, region⟩) :
    advanceCue vo =
      ({ vo with position := vo.position - 1, phase := vo.phase + toneIncrement frequency },
        decide (vo.position ≤ 1)) := by
  unfold advanceCue
  rw [h]

theorem advanceCue_silence {vo : Voice} {duration : Nat} {next : NextCue} {region : Option Region}
    (h : vo.cue = some ⟨.silence duration, next, region⟩) :
    advanceCue vo = ({ vo with position := vo.position - 1 }, decide (vo.position ≤ 1)) := by
  unfold advanceCue
  rw [h]

/-- R146: the voice at the place after its sample: a byte of PCM8_8K is played twice. -/
def nextPlaced (r : Region) (vo : Voice) : Voice :=
  let twice := r.format = .pcm8At8k ∧ vo.half = false
  { vo with
    position := if twice then vo.position else vo.position + if r.format = .pcm16At16k then 2 else 1
    half := decide twice }

theorem nextPlace_eq (r : Region) (vo : Voice) :
    nextPlace r.format vo.position vo.half = ((nextPlaced r vo).position, (nextPlaced r vo).half) := by
  obtain ⟨base, format, first, length⟩ := r
  unfold nextPlaced
  cases format with
  | pcm8At8k => cases e : vo.half <;> simp [nextPlace]
  | pcm8At16k => rfl
  | pcm16At16k => rfl

section Clip

variable {vo : Voice} {clip : ClipId} {start len rep gain : Nat} {next : NextCue} {r : Region}
  (h : vo.cue = some ⟨.clip clip start len rep gain, next, some r⟩)
include h

theorem advanceCue_inside (inside : (nextPlaced r vo).position + sampleSize r.format ≤ r.length) :
    advanceCue vo = (nextPlaced r vo, false) := by
  unfold advanceCue
  rw [h]
  dsimp only
  rw [nextPlace_eq, if_pos inside, ← h]
  rfl

section Past

variable (past : r.length < (nextPlaced r vo).position + sampleSize r.format)
include past

theorem advanceCue_endless (repeats : vo.repeats = .endless) :
    advanceCue vo = ({ vo with position := 0, half := false }, false) := by
  unfold advanceCue
  rw [h]
  dsimp only
  rw [nextPlace_eq, if_neg (Nat.not_le.2 past), repeats]

theorem advanceCue_again {k : Nat} (repeats : vo.repeats = .left (k + 1)) :
    advanceCue vo = ({ vo with position := 0, half := false, repeats := .left k }, false) := by
  unfold advanceCue
  rw [h]
  dsimp only
  rw [nextPlace_eq, if_neg (Nat.not_le.2 past), repeats]

theorem advanceCue_done (repeats : vo.repeats = .left 0) : advanceCue vo = (nextPlaced r vo, true) := by
  unfold advanceCue
  rw [h]
  dsimp only
  rw [nextPlace_eq, if_neg (Nat.not_le.2 past)]
  split
  · next other => cases other.symm.trans repeats
  · next other => cases other.symm.trans repeats
  · rw [← h]
    rfl

end Past

end Clip

/-! ### One voice's part of an output sample (R146, R151, R154) -/

theorem stepVoice_idle {v : VoiceId} {s : State} (h : (s.voice v).state = .idle) :
    stepVoice v s = ⟨s, 0, none, false⟩ := if_pos h

/-- R151: a fade whose gain reaches 0 contributes 0 and is to end. -/
theorem stepVoice_faded {v : VoiceId} {s : State} (h : (s.voice v).state = .fading)
    (silent : rampGain (s.voice v).gain (s.voice v).target = 0) :
    stepVoice v s = ⟨s.setVoice v { s.voice v with gain := 0 }, 0, none, true⟩ := by
  unfold stepVoice
  dsimp only
  rw [if_neg (by rw [h]; decide), if_pos ⟨h, silent⟩, silent]

section Sounds

variable {v : VoiceId} {s : State} (sounds : Sounds (s.voice v)) {sample : Int}
  (raw : rawSample s (rampedVoice (s.voice v)) = sample) {x : Voice}
include sounds raw

theorem stepVoice_goes (moved : advanceCue (rampedVoice (s.voice v)) = (x, false)) :
    stepVoice v s =
      ⟨s.setVoice v x,
        (sample * (min (rampGain (s.voice v).gain (s.voice v).target) (s.voice v).ceiling : Nat)).tdiv 1024, none,
        false⟩ := by
  unfold stepVoice
  dsimp only
  rw [if_neg sounds.not_idle, if_neg sounds.not_faded]
  unfold rampedVoice at moved raw
  rw [moved, raw]
  rfl

theorem stepVoice_ends (moved : advanceCue (rampedVoice (s.voice v)) = (x, true)) {body : CueBody} {next : NextCue}
    {region : Option Region} (cue : x.cue = some ⟨body, next, region⟩) :
    stepVoice v s =
      ⟨(fetchCue v next (s.setVoice v x)).1,
        (sample * (min (rampGain (s.voice v).gain (s.voice v).target) (s.voice v).ceiling : Nat)).tdiv 1024,
        (fetchCue v next (s.setVoice v x)).2, false⟩ := by
  unfold stepVoice
  dsimp only
  rw [if_neg sounds.not_idle, if_neg sounds.not_faded]
  unfold rampedVoice at moved raw
  rw [moved, raw]
  dsimp only
  rw [cue]
  rfl

end Sounds

/-! ### The output sample (R150, R154) -/

/-- R150, R151: the ends of one voice joined to those before it. -/
def closeNext (acc : State × List VoiceReport) (x : VoiceId × VoiceStep) : State × List VoiceReport :=
  ((closeStep x.1 x.2 acc.1).1, acc.2 ++ (closeStep x.1 x.2 acc.1).2)

theorem closeVoices_eq (emit : Event → State → State) (a b c d : VoiceStep) (s : State) :
    closeVoices emit a b c d s =
      (([((0 : VoiceId), a), (1, b), (2, c), (3, d)].foldl closeNext (s, [])).2.foldl
        (fun t r => reportVoice emit r t) ([((0 : VoiceId), a), (1, b), (2, c), (3, d)].foldl closeNext (s, [])).1) := by
  simp only [closeVoices, closeNext, List.foldl_cons, List.foldl_nil, List.nil_append]

/-- R151: a voice whose fade has reached gain 0 ends with the fade's reason on the fade's link. -/
theorem closeNext_eq :
    closeNext = fun (acc : State × List VoiceReport) (x : VoiceId × VoiceStep) =>
      let vo := acc.1.voice x.1
      let ended := closeVoice x.1 (vo.fadeReason.getD .stopped) (vo.fadeLink.getD .program) acc.1
      if x.2.faded then (ended.1, acc.2 ++ [ended.2]) else (acc.1, acc.2 ++ x.2.report.toList) := by
  funext acc x
  unfold closeNext closeStep endFade
  dsimp only
  split <;> rfl

theorem mix_eq (sum : Int) (master : Nat) :
    mix sum master = max (-32768) (min 32767 ((sum * master).tdiv 1024)) := clampInt_eq (by decide) _

theorem quiet_served (s : State) :
    Quiet s (stepVoice 3 (stepVoice 2 (stepVoice 1 (stepVoice 0 s).state).state).state).state :=
  (((quiet_stepVoice 0 s).trans (quiet_stepVoice 1 _)).trans (quiet_stepVoice 2 _)).trans (quiet_stepVoice 3 _)

/-- R154: with every voice IDLE the sample is 0. -/
theorem outputSample_idle {s : State} (idle : ∀ v, (s.voice v).state = .idle) :
    outputSample react s = { s with aout := 0 } := by
  simp [outputSample, stepVoice_idle (idle _), mix_eq, closeVoices, closeStep]

/-- R154: the output sample once the voices have been served: the mix goes to AOUT, and the ends follow, each reported in
voice order once all are closed (R150, R151). -/
theorem closeVoices_reports {s : State} {a b c d : VoiceStep} (served : Quiet s d.state) (sum : Int) :
    let mixed := { d.state with aout := max (-32768) (min 32767 ((sum * s.master).tdiv 1024)) }
    let closed := [((0 : VoiceId), a), (1, b), (2, c), (3, d)].foldl closeNext (mixed, [])
    let t := closeVoices react a b c d { d.state with aout := mix sum d.state.master }
    t.aout = mixed.aout ∧ Quiet { s with aout := t.aout } t ∧
      t = closed.2.foldl (fun u r => reportVoice react r u) closed.1 := by
  intro mixed closed t
  have aout : mix sum d.state.master = mixed.aout := by rw [mix_eq, served.master]
  have same : t = closeVoices react a b c d mixed :=
    congrArg (fun x => closeVoices react a b c d { d.state with aout := x }) aout
  have quiet : Quiet mixed t := same ▸ quiet_closeVoices a b c d mixed
  refine ⟨quiet.aout, ?_, same.trans (closeVoices_eq react a b c d mixed)⟩
  rw [quiet.aout]
  exact (quiet_aout served mixed.aout).trans quiet

theorem exec_outputSample (s : State) :
    let a := stepVoice 0 s
    let b := stepVoice 1 a.state
    let c := stepVoice 2 b.state
    let d := stepVoice 3 c.state
    let sum := a.contribution + b.contribution + c.contribution + d.contribution
    exec .outputSample s = .next (closeVoices react a b c d { d.state with aout := mix sum d.state.master }) := by
  simp only [exec, execOutputSample, outputSample]

/-- Settles O54: an output sample by the steps of its four voices, a voice's step by its state and its cue, and a fetch
by the cue that comes next. -/
theorem outputSampleMixesVoices : Obligations.OutputSampleMixesVoices := by
  unfold Obligations.OutputSampleMixesVoices
  refine ⟨fun s => ?_, fun s v => ?_, fun s v => ?_⟩
  · have run := exec_outputSample s
    have served := quiet_served s
    dsimp only at run ⊢
    generalize stepVoice 0 s = a at run served ⊢
    generalize stepVoice 1 a.state = b at run served ⊢
    generalize stepVoice 2 b.state = c at run served ⊢
    generalize stepVoice 3 c.state = d at run served ⊢
    refine ⟨⟨_, run, ?_⟩, fun idle => next_congr (outputSample_idle idle)⟩
    have reports := closeVoices_reports (a := a) (b := b) (c := c) served
      (a.contribution + b.contribution + c.contribution + d.contribution)
    rw [closeNext_eq] at reports
    exact reports
  · intro vo gain sounds goes ends
    have counted {sample : Int} {x : Voice} {body : CueBody} {next : NextCue} {region : Option Region}
        (sounding : sounds) (raw : rawSample s (rampedVoice vo) = sample)
        (moved : advanceCue (rampedVoice vo) = ({ x with gain := gain }, decide (vo.position ≤ 1)))
        (cue : x.cue = some ⟨body, next, region⟩) :
        (1 < vo.position → goes sample x) ∧ (vo.position ≤ 1 → ends sample x next) :=
      ⟨fun more => stepVoice_goes sounding raw (moved.trans (congrArg (_, ·) (decide_eq_false (Nat.not_le.2 more)))),
        fun last => stepVoice_ends sounding raw (moved.trans (congrArg (_, ·) (decide_eq_true last))) cue⟩
    refine ⟨stepVoice_idle, stepVoice_faded, ?_, ?_, ?_⟩
    · intro frequency duration wave g next region sounding cue p sample x
      have raw : rawSample s (rampedVoice vo) = sample := by
        rw [rawSample_tone (vo := rampedVoice vo) cue]
        cases wave <;> rfl
      exact counted sounding raw (advanceCue_tone (vo := rampedVoice vo) cue) cue
    · intro duration next region sounding cue x
      exact counted sounding (rawSample_silence (vo := rampedVoice vo) cue s)
        (advanceCue_silence (vo := rampedVoice vo) cue) cue
    · intro clip start len rep g next r sounding cue byte at' sample size twice x
      have raw : rawSample s (rampedVoice vo) = sample := by
        rw [rawSample_clip (vo := rampedVoice vo) cue]
        obtain ⟨base, format, first, length⟩ := r
        cases format <;> rfl
      have stored : (rampedVoice vo).cue = some ⟨.clip clip start len rep g, next, some r⟩ := cue
      have whole : sampleSize r.format = size := sampleSize_eq r.format
      refine ⟨fun inside => ?_, fun past => ⟨fun repeats => ?_, fun k repeats => ?_, fun repeats => ?_⟩⟩
      · exact stepVoice_goes sounding raw (advanceCue_inside stored (by rw [whole]; exact inside))
      · exact stepVoice_goes sounding raw (advanceCue_endless stored (by rw [whole]; exact past) repeats)
      · exact stepVoice_goes sounding raw (advanceCue_again stored (by rw [whole]; exact past) repeats)
      · exact stepVoice_ends sounding raw (advanceCue_done stored (by rw [whole]; exact past) repeats) cue
  · intro vo s0 ended plays
    have taken {n : CueId} {copy : CueCopy} {position : Nat} {rep : Repeats} {gain : Nat} {u : State}
        (fetched : fetchCue v (.entry n) s = (takenBy v (cuedVoice n copy position rep vo) gain u, none)) :
        plays n u (cuedVoice n copy position rep vo) gain :=
      ⟨fun playing => fetched.trans (congrArg (·, none) (if_pos playing)),
        fun still => fetched.trans (congrArg (·, none) (if_neg still))⟩
    refine ⟨clip_releaseClip v s, releaseClip_eq v s, fetchCue_finish v s, fun n => ⟨fun none => fetchCue_empty none v,
      fun cue entry => ⟨?_, ?_, ?_⟩⟩⟩
    · intro frequency duration wave gain body
      exact taken (fetchCue_tone entry v body)
    · intro duration body
      exact taken (fetchCue_silence entry v body)
    · intro k start len rep gain body
      refine ⟨fetchCue_noClip entry v body, ?_⟩
      intro c clip length size
      refine ⟨fun short => ?_, fun whole => ?_⟩
      · exact fetchCue_short entry v body clip (regionOf_short short)
      · exact taken (fetchCue_clip entry v body clip (regionOf_whole whole))

end Sys2Proof.Machine

namespace Sys2Proof.Machine

open Sys2Proof.Safety

/-! ### PLAY (R144, R150) -/

/-- R144, R150: the state beside the voice that a PLAY starts from: the clip it held is released, and of a voice that
was playing the grant. -/
def playBase (v : VoiceId) (s : State) : State :=
  if (s.voice v).state = .idle then releaseClip v s else quieted v (s.voice v) (releaseClip v s)

/-- R144: the voice PLAYING from gain 0 and phase 0, before its cue is taken up. -/
def playVoiceFrom (vo : Voice) : Voice :=
  { (if vo.state = .idle then vo else quietVoice vo) with state := .playing, gain := 0, phase := 0 }

theorem level_playVoiceFrom (vo : Voice) : (playVoiceFrom vo).level = vo.level := by
  unfold playVoiceFrom
  split <;> rfl

/-- R144, R150: the REPLACED end that waits until the new cue has been taken up. -/
def replacedEnd (v : VoiceId) (s : State) : Option VoiceReport :=
  if (s.voice v).state = .idle then none
  else some ⟨v, .replaced, s.ownerLink (.voice v), (s.voice v).cueEntry, heldClip (s.voice v)⟩

/-- R144: the state that the fetch of a PLAY starts from. -/
def playStart (v : VoiceId) (s : State) : State :=
  if (s.voice v).state = .idle then s.setVoice v (playVoiceFrom (s.voice v))
  else (quieted v (s.voice v) (releaseClip v s)).setVoice v (playVoiceFrom (s.voice v))

theorem voice_playStart (v : VoiceId) (s : State) : (playStart v s).voice v = playVoiceFrom (s.voice v) := by
  unfold playStart
  split
  · exact State.voice_setVoice_self _ v _
  · exact State.voice_setVoice_self _ v _

theorem voice_quieted (v : VoiceId) (vo : Voice) (u : State) : (quieted v vo u).voice v = quietVoice vo :=
  State.voice_setVoice_self u v _

theorem closeVoice_quieted (v : VoiceId) (reason : VoiceEndReason) (link : Source) (s : State) :
    closeVoice v reason link s =
      (quieted v (s.voice v) (releaseClip v s),
        ⟨v, reason, link, (s.voice v).cueEntry, heldClip (s.voice v)⟩) := closeVoice_eq v reason link s

theorem cue_playStart (v : VoiceId) (s : State) (n : CueId) : (playStart v s).cue n = s.cue n := by
  unfold playStart
  split
  · rfl
  · exact cue_releaseClip v s n

theorem ownerLink_playStart (v : VoiceId) (s : State) :
    (playStart v s).ownerLink (.voice v) = s.ownerLink (.voice v) := by
  unfold playStart
  split
  · rfl
  · exact ownerLink_releaseClip v s (.voice v)

/-- R141, R145: the clip that an IDLE voice holds is released by the fetch, and any other's by the end. -/
theorem releaseClip_playStart (v : VoiceId) (s : State) :
    releaseClip v (playStart v s) = (playBase v s).setVoice v (playVoiceFrom (s.voice v)) := by
  unfold playStart playBase
  by_cases idle : (s.voice v).state = .idle
  · rw [if_pos idle, if_pos idle]
    exact releaseClip_setVoice (by unfold playVoiceFrom; rw [if_pos idle])
  · rw [if_neg idle, if_neg idle]
    refine releaseClip_of_none ?_
    rw [State.voice_setVoice_self]
    unfold playVoiceFrom
    rw [if_neg idle]
    rfl

/-- R144: a PLAY fetches its cue; what the fetch ends is reported first, and the REPLACED end then (log 26). -/
theorem playVoice_eq (emit : Event → State → State) (v : VoiceId) (n : CueId) (s : State) :
    playVoice emit v n s =
      reportMaybe emit (replacedEnd v s)
        (reportMaybe emit (fetchCue v (.entry n) (playStart v s)).2 (fetchCue v (.entry n) (playStart v s)).1) := by
  unfold playVoice replacedEnd playStart playVoiceFrom
  by_cases idle : (s.voice v).state = .idle
  · simp only [if_pos idle, State.modVoice_eq]
  · simp only [if_neg idle, State.modVoice_eq, endVoice, closeVoice_quieted, voice_quieted]

/-- R144, R145: a PLAY whose fetch took a cue up. -/
theorem playVoice_plays {v : VoiceId} {n : CueId} {s u : State} {copy : CueCopy} {position : Nat} {rep : Repeats}
    {gain : Nat} {x : Voice}
    (fetched : fetchCue v (.entry n) (playStart v s) =
      (takenBy v (cuedVoice n copy position rep ((playStart v s).voice v)) gain (u.setVoice v x), none))
    (emit : Event → State → State) :
    playVoice emit v n s =
      reportMaybe emit (replacedEnd v s)
        (askedVoice v (cuedVoice n copy position rep (playVoiceFrom (s.voice v)))
          (gain * (s.voice v).level / 1024) u) := by
  have playing : (cuedVoice n copy position rep (playVoiceFrom (s.voice v))).state = .playing := rfl
  have level : (cuedVoice n copy position rep (playVoiceFrom (s.voice v))).level = (s.voice v).level :=
    level_playVoiceFrom (s.voice v)
  rw [playVoice_eq, fetched, voice_playStart, takenBy, if_pos playing, level, askedVoice_setVoice]
  rfl

/-- R144, R145: a PLAY whose fetch ended the voice. -/
theorem playVoice_fails {v : VoiceId} {n : CueId} {s : State} {reason : VoiceEndReason}
    (fetched : fetchCue v (.entry n) (playStart v s) =
      (quieted v ((playStart v s).voice v) (releaseClip v (playStart v s)),
        some (fetchReport v reason (playStart v s))))
    (emit : Event → State → State) :
    playVoice emit v n s =
      reportMaybe emit (replacedEnd v s)
        (reportVoice emit ⟨v, reason, s.ownerLink (.voice v), none, none⟩
          (quieted v (playVoiceFrom (s.voice v)) (playBase v s))) := by
  have playing : (playVoiceFrom (s.voice v)).state ≠ .fading := by
    show VoiceState.playing ≠ .fading
    decide
  rw [playVoice_eq, fetched, fetchReport, voice_playStart, if_neg playing, ownerLink_playStart, releaseClip_playStart,
    quieted_setVoice]
  rfl

/-- R144: PLAY of a cue, with the reactions that follow. -/
theorem exec_play {s : State} {src : Source} {i : Fin 8} (h : Accepts s src i) (tag : Byte) {v : VoiceId}
    (own : s.owner (.voice v) = some src) {n : CueId} {cue : Cue} (entry : s.cue n = some cue) :
    let r := reserved s src i 0x3F#8 tag
    let u := playVoice react v n r
    exec (.play src tag v.val n.val) s =
        .next ((u.restartLease (.voice v)).post src i
          (Reply.ok false (.played (u.voice v).state n (decide ((s.voice v).state ≠ .idle))))) ∧
      Quiet r u := by
  intro r u
  refine ⟨next_congr (serve_voice_owned h (k := .play) rfl tag own ?_), quiet_playVoice quiet_react v n r⟩
  unfold playRequest
  rw [index_val]
  dsimp only
  rw [reserved_cue, entry, reserved_voice]
  rfl

theorem exec_play_badValue {s : State} {src : Source} {i : Fin 8} (h : Accepts s src i) (tag : Byte) {v : VoiceId}
    (own : s.owner (.voice v) = some src) {n : Nat} (bad : ∀ k, index 64 n = some k → s.cue k = none) :
    exec (.play src tag v.val n) s = .next (answered s src i 0x3F#8 tag (Reply.refuse .badValue)) := by
  refine next_congr (serve_voice_refused h (k := .play) rfl tag own (by decide) fun t e => ?_)
  subst e
  unfold playRequest
  split
  · rfl
  · next k named => rw [reserved_cue, bad k named]

/-- Settles O51: PLAY by the cue that its fetch takes up, from an IDLE voice and from one that is replaced. -/
theorem playStartsCue : Obligations.PlayStartsCue := by
  unfold Obligations.PlayStartsCue
  intro s src i tag v h own vo
  refine ⟨fun n out => exec_play_badValue h tag own fun k named => ?_,
    fun n => ⟨fun none => exec_play_badValue h tag own fun k named => ?_, fun cue entry => ?_⟩⟩
  · cases (index_of_le out).symm.trans named
  · cases (index_val n).symm.trans named
    exact none
  · intro r report cleared old base replaced ends plays badClip
    have voice : r.voice v = vo := reserved_voice s src i 0x3F#8 tag v
    have link : r.ownerLink (.voice v) = src := by
      rw [State.ownerLink, show r.owner (.voice v) = some src from (reserved_owner ..).trans own]
      rfl
    have base_eq : playBase v r = base := by
      unfold playBase
      rw [voice]
      rfl
    have replaced_eq (u : State) : reportMaybe react (replacedEnd v r) u = replaced u := by
      unfold replacedEnd
      rw [voice, link]
      by_cases idle : vo.state = .idle
      · rw [if_pos idle]
        exact (if_pos idle).symm
      · rw [if_neg idle]
        exact (if_neg idle).symm
    have ends_of {w : State} (e : playVoice react v n r = reportMaybe react (replacedEnd v r) w) : ends w := by
      have run := exec_play h tag own entry
      dsimp only at run
      rw [e, replaced_eq] at run
      exact run
    have stored : (playStart v r).cue n = some cue := ((cue_playStart v r n).trans (reserved_cue ..)).trans entry
    have released := releaseClip_playStart v r
    rw [base_eq, voice] at released
    clear_value base replaced ends
    have failed (fetched : fetchCue v (.entry n) (playStart v r) =
        (quieted v ((playStart v r).voice v) (releaseClip v (playStart v r)),
          some (fetchReport v .badClip (playStart v r)))) : badClip := by
      have run := ends_of (playVoice_fails fetched react)
      rw [voice, link, base_eq] at run
      exact run
    have started {u : State} {region : Option Region} {position : Nat} {rep : Repeats} {gain : Nat}
        (fetched : fetchCue v (.entry n) (playStart v r) =
          (takenBy v (cuedVoice n ⟨cue.body, cue.next, region⟩ position rep ((playStart v r).voice v)) gain
            (u.setVoice v (playVoiceFrom vo)), none)) : plays u region position rep gain := by
      have run := ends_of (playVoice_plays fetched react)
      rw [voice] at run
      exact run
    refine ⟨?_, ?_, ?_⟩
    · intro frequency duration wave gain body
      exact started (by rw [← released]; exact fetchCue_tone stored v body)
    · intro duration body
      exact started (by rw [← released]; exact fetchCue_silence stored v body)
    · intro k start len rep gain body
      refine ⟨fun gone => failed (fetchCue_noClip stored v body (by rw [released]; exact gone)), fun c clip => ?_⟩
      have held : (releaseClip v (playStart v r)).clip k = some c := by rw [released]; exact clip
      intro length size
      refine ⟨fun short => failed (fetchCue_short stored v body held (regionOf_short short)), fun whole => ?_⟩
      have fetched := fetchCue_clip stored v body held (regionOf_whole whole)
      rw [released] at fetched
      exact started fetched

end Sys2Proof.Machine

namespace Sys2Proof.Machine

open Sys2Proof.Safety

/-! ### One chain written and read again -/

@[simp] theorem State.setChain_setChain (s : State) (p : PortId) (c d : Chain) :
    (s.setChain p c).setChain p d = s.setChain p d := by
  simp [State.setChain]

@[simp] theorem State.setChain_chain (s : State) (p : PortId) : s.setChain p (s.chain p) = s := by
  simp [State.setChain, State.chain]

theorem State.modChain_eq (s : State) (p : PortId) (f : Chain → Chain) :
    s.modChain p f = s.setChain p (f (s.chain p)) := rfl

@[simp] theorem State.chain_modChain_self (s : State) (p : PortId) (f : Chain → Chain) :
    (s.modChain p f).chain p = f (s.chain p) := State.chain_setChain_self s p _

@[simp] theorem State.modChain_setChain (s : State) (p : PortId) (c : Chain) (f : Chain → Chain) :
    (s.setChain p c).modChain p f = s.setChain p (f c) := by
  rw [State.modChain, State.chain_setChain_self, State.setChain_setChain]

/-- R98: the record of a module is the one at its place in the chain's list. -/
theorem State.module_eq (s : State) (p : PortId) (k : ModulePos) : s.module p k = (s.chain p).modules[k.val]? := rfl

@[simp] theorem State.chain_setModule (s : State) (p : PortId) (k : ModulePos) (r : ModuleRecord) :
    (s.setModule p k r).chain p = { s.chain p with modules := (s.chain p).modules.set k.val r } :=
  State.chain_setChain_self s p _

theorem State.module_setModule {s : State} {p : PortId} {k : ModulePos} {r : ModuleRecord}
    (held : s.module p k = some r) (x : ModuleRecord) : (s.setModule p k x).module p k = some x := by
  have inside : k.val < (s.chain p).modules.length := (List.getElem?_eq_some_iff.1 held).1
  simp [State.module_eq, inside]

@[simp] theorem State.setModule_setModule (s : State) (p : PortId) (k : ModulePos) (x y : ModuleRecord) :
    (s.setModule p k x).setModule p k y = s.setModule p k y := by
  simp [State.setModule, State.modChain_eq s]

/-- R96: a change of a chain's state, with the notice and the event that follow. -/
theorem changeChain_eq (p : PortId) (st : ChainState) (cause : ChainCause) (s : State) :
    changeChain p st cause s = react (.chainState p st)
      ((s.setChain p { s.chain p with state := st }).placeBoth
        (.chainState p (s.chain p).state st cause (s.chain p).modules.length (s.chain p).overlong (s.chain p).failedA
          (s.chain p).failedB (s.chain p).selected (s.chain p).sticky s.time)) := by
  simp [changeChain, chainNotice, State.modChain_eq]

/-! ### A chain that keeps its wire, or has none to hand out (R87) -/

/-- R87: a chain with a call in flight, after the wires are handed out. -/
theorem handOutFrom_busy {s : State} {p q : PortId} {c : Chain} (chain : s.chain q = c) (busy : c.inFlight ≠ none) :
    QueuesOnly c ((handOutFrom p s).chain q) := by
  subst chain
  exact handOutFrom_heldBack (by simp [Chain.heldBack, Option.isSome_iff_ne_none, busy])

/-- R87: a chain that is not live, after the wires are handed out. -/
theorem handOutFrom_dead {s : State} {p q : PortId} {c : Chain} (chain : s.chain q = c) (dead : c.live = false) :
    QueuesOnly c ((handOutFrom p s).chain q) := by
  subst chain
  exact handOutFrom_heldBack (by simp [Chain.heldBack, dead])

/-- R87: a wire that is handed out to a call: the chain stays so while the other wires are handed out. -/
theorem handOutFrom_calls {s : State} {p : PortId} {c : Chain} (wants : (s.chain p).wants = true)
    (out : (handOut p s).chain p = c) (busy : c.inFlight ≠ none) :
    QueuesOnly c ((handOutFrom p s).chain p) := by
  unfold handOutFrom
  rw [if_pos wants, ← out]
  exact settleWires_heldBack 256 (by simp [out, Chain.heldBack, Option.isSome_iff_ne_none, busy])

theorem present_iff (c : Chain) (k : ModulePos) :
    present c k = true ↔ ∃ r, c.modules[k.val]? = some r ∧ r.state ≠ .absent := by
  unfold present
  cases c.modules[k.val]? <;> simp

end Sys2Proof.Machine

namespace Sys2Proof.Machine

open Sys2Proof.Safety

/-! ### One millisecond (R75, R99, R163, R171) -/

theorem claim_passClaims (s : State) (r : Resource) : (passClaims s).claim r = Claim.pass (s.claim r) :=
  (foldl_pointwise (get := State.claim) (g := fun _ => Claim.pass) (fun t i j => State.claim_setClaim t i j _)
    nodup_allResources s r).trans (if_pos (mem_allResources r))

theorem chain_passChains (s : State) (p : PortId) : (passChains s).chain p = Chain.pass (s.chain p) :=
  (foldl_pointwise (get := State.chain) (g := fun _ => Chain.pass) (fun t i j => State.chain_setChain t i j _)
    nodup_allPorts s p).trans (if_pos (mem_allPorts p))

theorem sub_passSubs (s : State) (n : SubId) : (passSubs s).sub n = (s.sub n).map Subscription.pass :=
  (foldl_pointwise (get := State.sub) (g := fun _ => Option.map Subscription.pass)
    (fun t i j => State.sub_setSub t i j _) nodup_allSubs s n).trans (if_pos (mem_allSubs n))

/-- The state `s` with the clock and the timers of `t`. -/
def withTimers (t s : State) : State :=
  { s with
    time := t.time, motorClaims := t.motorClaims, voiceClaims := t.voiceClaims, chains := t.chains, subs := t.subs }

/-- Work that changes the clock and the timers alone is so in sequence. -/
theorem withTimers_trans {a b c : State} (h : b = withTimers b a) (k : c = withTimers c b) : c = withTimers c a := by
  rw [k, h]
  rfl

theorem withTimers_foldl {α : Type} {f : State → α → State} (turn : ∀ s a, f s a = withTimers (f s a) s) (xs : List α)
    (s : State) : xs.foldl f s = withTimers (xs.foldl f s) s := by
  induction xs generalizing s with
  | nil => rfl
  | cons a rest ih => exact withTimers_trans (turn s a) (ih (f s a))

theorem withTimers_idle (s : State) : idle s = withTimers (idle s) s := by
  let timed : State := { s with time := s.time + 1 }
  have claims : passClaims timed = withTimers (passClaims timed) timed :=
    withTimers_foldl (fun t r => by cases r <;> rfl) _ _
  have chains : passChains (passClaims timed) = withTimers (passChains (passClaims timed)) (passClaims timed) :=
    withTimers_foldl (fun _ _ => rfl) _ _
  have subs : idle s = withTimers (idle s) (passChains (passClaims timed)) := withTimers_foldl (fun _ _ => rfl) _ _
  exact withTimers_trans (withTimers_trans (withTimers_trans (b := timed) rfl claims) chains) subs

theorem time_idle (s : State) : (idle s).time = s.time + 1 :=
  calc (idle s).time
    _ = (passChains (passClaims { s with time := s.time + 1 })).time := foldl_keeps (fun _ _ => rfl) allSubs _
    _ = (passClaims { s with time := s.time + 1 }).time := foldl_keeps (fun _ _ => rfl) allPorts _
    _ = s.time + 1 := foldl_keeps (fun t r => State.setClaim_time t r _) allResources _

theorem chain_passSubs (s : State) (p : PortId) : (passSubs s).chain p = s.chain p := by
  unfold passSubs
  exact foldl_keeps (get := (State.chain · p)) (fun t n => by rfl) allSubs s

theorem chain_passClaims (s : State) (p : PortId) : (passClaims s).chain p = s.chain p := by
  unfold passClaims
  exact foldl_keeps (get := (State.chain · p)) (fun t r => by cases r <;> rfl) allResources s

theorem sub_passChains (s : State) (n : SubId) : (passChains s).sub n = s.sub n := by
  unfold passChains
  exact foldl_keeps (get := (State.sub · n)) (fun t p => by rfl) allPorts s

theorem sub_passClaims (s : State) (n : SubId) : (passClaims s).sub n = s.sub n := by
  unfold passClaims
  exact foldl_keeps (get := (State.sub · n)) (fun t r => by cases r <;> rfl) allResources s

theorem claim_passSubs (s : State) (r : Resource) : (passSubs s).claim r = s.claim r := by
  unfold passSubs
  exact foldl_keeps (get := (State.claim · r)) (fun t n => by cases r <;> rfl) allSubs s

theorem claim_passChains (s : State) (r : Resource) : (passChains s).claim r = s.claim r := by
  unfold passChains
  exact foldl_keeps (get := (State.claim · r)) (fun t n => by cases r <;> rfl) allPorts s

theorem claim_idle (s : State) (r : Resource) : (idle s).claim r = Claim.pass (s.claim r) := by
  unfold idle
  rw [claim_passSubs, claim_passChains, claim_passClaims]
  cases r <;> rfl

theorem chain_idle (s : State) (p : PortId) : (idle s).chain p = Chain.pass (s.chain p) := by
  unfold idle
  rw [chain_passSubs, chain_passChains, chain_passClaims]
  rfl

theorem sub_idle (s : State) (n : SubId) : (idle s).sub n = (s.sub n).map Subscription.pass := by
  unfold idle
  rw [sub_passSubs, sub_passChains, sub_passClaims]
  rfl

/-- Settles O2: each of the three passes changes its own bank alone, and every record of it by its own turn. -/
theorem idleStepPassesOneMillisecond : Obligations.IdleStepPassesOneMillisecond := by
  unfold Obligations.IdleStepPassesOneMillisecond
  intro s empty left
  have run : step s = .next (idle s) := by
    unfold step
    rw [empty]
  exact ⟨idle s, run, time_idle s, claim_idle s, chain_idle s, sub_idle s, withTimers_idle s⟩

end Sys2Proof.Machine

namespace Sys2Proof.Machine

open Sys2Proof.Safety

/-! ### CHAIN_SET (R93) -/

theorem mem_allPositions (k : ModulePos) : k ∈ allPositions := by revert k; decide

theorem clampField_getD {lo hi : Nat} (h : lo ≤ hi) (new : Option Int) (old : Nat) :
    ((clampField lo hi new).1).getD old = (taken lo hi new none).getD old := by
  rw [← clampField_taken h]
  cases (clampField lo hi new).1 <;> rfl

theorem settingsClamped_eq (f : ChainSetFields) :
    settingsClamped f =
      (cut 10 100 f.syncPeriod || cut 16 255 f.threshold || cut 1 25 f.divider1 || cut 1 25 f.divider2 ||
        cut 1 25 f.divider3 || cut 1 25 f.divider4) := by
  simp [settingsClamped, clampField_cut, allPositions, dividerField, Bool.or_assoc]

/-- R93: the records of a chain with the dividers of a change set written. -/
def dividedModules (f : ChainSetFields) (ms : List ModuleRecord) : List ModuleRecord :=
  ms.mapIdx fun i r => if h : i < 4 then setDivider f ⟨i, h⟩ r else r

theorem applySettings_eq (f : ChainSetFields) (c : Chain) :
    c.applySettings f =
      { c with
        syncPeriod := (taken 10 100 f.syncPeriod none).getD c.syncPeriod
        threshold := (taken 16 255 f.threshold none).getD c.threshold
        sticky := f.sticky.getD c.sticky, modules := dividedModules f c.modules } := by
  unfold Chain.applySettings
  rw [clampField_getD (show (10 : Nat) ≤ 100 by decide), clampField_getD (show (16 : Nat) ≤ 255 by decide)]
  rfl

theorem setDivider_eq (f : ChainSetFields) (k : ModulePos) (r : ModuleRecord) :
    setDivider f k r =
      match dividerField f k with
      | some x => { r with divider := (max 1 (min 25 x)).toNat, countdown := (max 1 (min 25 x)).toNat }
      | none => r := by
  unfold setDivider
  have clamped (x : Int) : clampNat 1 25 x = (max 1 (min 25 x)).toNat :=
    congrArg Int.toNat (clampInt_eq (by decide) x)
  simp only [clamped] <;> rfl

theorem getElem?_dividedModules {f : ChainSetFields} {ms : List ModuleRecord} {k : ModulePos} {r : ModuleRecord}
    (held : ms[k.val]? = some r) : (dividedModules f ms)[k.val]? = some (setDivider f k r) := by
  unfold dividedModules
  rw [List.getElem?_mapIdx, held, Option.map_some, dif_pos k.isLt]

/-- R93: CHAIN_SET refuses a divider for a position without a record. -/
theorem chainSet_noRecord {s : State} {p : PortId} {f : ChainSetFields} {k : ModulePos} (set : dividerField f k ≠ none)
    (out : (s.chain p).modules.length ≤ k.val) : chainSet p.val f s = (s, Reply.refuse .badValue) := by
  have bad : (allPositions.any fun k => (dividerField f k).isSome && (s.module p k).isNone) = true := by
    rw [List.any_eq_true]
    refine ⟨k, mem_allPositions k, ?_⟩
    rw [State.module_eq, List.getElem?_eq_none out]
    simp [Option.isSome_iff_ne_none, set]
  unfold chainSet
  rw [index_val]
  exact if_pos bad

/-- R93: CHAIN_SET takes its settings where every divider has a record. -/
theorem chainSet_takes {s : State} {p : PortId} {f : ChainSetFields}
    (good : ∀ k : ModulePos, dividerField f k ≠ none → k.val < (s.chain p).modules.length) :
    chainSet p.val f s =
      (s.setChain p ((s.chain p).applySettings f),
        Reply.ok (settingsClamped f)
          (.chainSettings
            { syncPeriod := ((s.chain p).applySettings f).syncPeriod
              threshold := ((s.chain p).applySettings f).threshold
              sticky := ((s.chain p).applySettings f).sticky
              dividers := ((s.chain p).applySettings f).modules.map ModuleRecord.divider })) := by
  have fine : ¬(allPositions.any fun k => (dividerField f k).isSome && (s.module p k).isNone) = true := by
    rw [List.any_eq_true]
    rintro ⟨k, -, bad⟩
    simp only [Bool.and_eq_true, Option.isSome_iff_ne_none, Option.isNone_iff_eq_none, State.module_eq,
      List.getElem?_eq_none_iff] at bad
    exact absurd (good k bad.1) (by omega)
  unfold chainSet
  rw [index_val]
  exact if_neg fine

/-- Settles O32: CHAIN_SET refuses a divider without a record, and otherwise writes the chain once. -/
theorem chainSetTakesSettings : Obligations.ChainSetTakesSettings := by
  unfold Obligations.ChainSetTakesSettings
  intro s i tag p f h c
  have answers {t : State} {r : Reply} {n : Nat}
      (e : chainSet n f (reserved s .program i 0x21#8 tag) = (reserved t .program i 0x21#8 tag, r)) :
      exec (.chainSet .program tag n f) s = .next (answered t .program i 0x21#8 tag r) :=
    next_congr (serve_answered h .chainSet tag (fun _ => rfl) e)
  refine ⟨fun n out => answers ?_, fun ⟨k, set, out⟩ => answers ?_, fun good =>
    ⟨dividedModules f c.modules, answers ?_, by simp [dividedModules], fun k r held => ?_⟩⟩
  · unfold chainSet
    rw [index_of_le out]
  · exact chainSet_noRecord set (by rwa [reserved_chain])
  · rw [chainSet_takes (by rwa [reserved_chain]), reserved_chain, reserved_setChain, applySettings_eq,
      settingsClamped_eq]
  · exact (getElem?_dividedModules held).trans (congrArg some (setDivider_eq f k r))

end Sys2Proof.Machine

namespace Sys2Proof.Machine

open Sys2Proof.Safety

/-! ### Page requests (R88, R89) -/

theorem pageOf_out {n : Nat} (h : 4 ≤ n) : pageOf n = none := by
  obtain ⟨m, rfl⟩ := Nat.exists_eq_add_of_le' h
  rfl

@[simp] theorem pageOf_pageNumber (page : Page) : pageOf (pageNumber page) = some page := by cases page <;> rfl

theorem pageRefusal_dead {c : Chain} (dead : c.live = false) (k : ModulePos) : pageRefusal c k = some .busy := by
  simp [pageRefusal, dead]

theorem pageRefusal_noRecord {c : Chain} (live : c.live = true) {k : ModulePos} (out : c.modules.length ≤ k.val) :
    pageRefusal c k = some .badValue := by
  simp [pageRefusal, live, List.getElem?_eq_none out]

theorem pageRefusal_record {c : Chain} (live : c.live = true) {k : ModulePos} {r : ModuleRecord}
    (held : c.modules[k.val]? = some r) : pageRefusal c k = if r.state = .absent then some .busy else none := by
  simp [pageRefusal, live, held]

/-- R88: a page request that names no module or no page. -/
theorem pageRequest_out {port pos page : Nat} (out : 4 ≤ port ∨ pos = 0 ∨ 5 ≤ pos ∨ 4 ≤ page) (src : Source)
    (data : Option PageBytes) (i : Fin 8) (s : State) :
    pageRequest src port pos page data i s = (s, some (Reply.refuse .badValue)) := by
  have unnamed : moduleName port pos = none ∨ pageOf page = none := by
    rcases out with out | out | out | out
    · exact .inl (moduleName_out (.inl out))
    · exact .inl (moduleName_out (.inr (.inl out)))
    · exact .inl (moduleName_out (.inr (.inr out)))
    · exact .inr (pageOf_out out)
  unfold pageRequest
  rcases unnamed with unnamed | unnamed
  · rw [unnamed]
  · rw [unnamed]
    cases moduleName port pos <;> rfl

/-- R88: a page request that its chain or its module refuses. -/
theorem pageRequest_refused {s : State} {p : PortId} {k : ModulePos} {st : Status}
    (refused : pageRefusal (s.chain p) k = some st) (src : Source) (page : Page) (data : Option PageBytes) (i : Fin 8) :
    pageRequest src p.val (k.val + 1) (pageNumber page) data i s = (s, some (Reply.refuse st)) := by
  unfold pageRequest
  rw [moduleName_in, pageOf_pageNumber]
  dsimp only
  rw [refused]

/-- R88: a page request at a full queue. -/
theorem pageRequest_full {s : State} {p : PortId} {k : ModulePos} (takes : pageRefusal (s.chain p) k = none)
    (full : 8 ≤ (s.chain p).queue.length) (src : Source) (page : Page) (data : Option PageBytes) (i : Fin 8) :
    pageRequest src p.val (k.val + 1) (pageNumber page) data i s = (s, some (Reply.refuse .full)) := by
  unfold pageRequest
  rw [moduleName_in, pageOf_pageNumber]
  dsimp only
  rw [takes]
  exact if_pos full

/-- R88: a page request taken, its operation at the tail of the queue. -/
theorem pageRequest_queued {s : State} {p : PortId} {k : ModulePos} (takes : pageRefusal (s.chain p) k = none)
    (room : (s.chain p).queue.length < 8) (src : Source) (page : Page) (data : Option PageBytes) (i : Fin 8) :
    pageRequest src p.val (k.val + 1) (pageNumber page) data i s =
      (handOutFrom p (s.setChain p
        { s.chain p with queue := (s.chain p).queue ++ [⟨k, page, data, 0, .request src i⟩] }), none) := by
  unfold pageRequest
  rw [moduleName_in, pageOf_pageNumber]
  dsimp only
  rw [takes]
  exact if_neg (by omega)

/-- R89: an operation alone in the queue of a live chain with an idle wire and no poll ahead goes out at once. -/
theorem handOutFrom_opCall {s : State} {p : PortId} {c : Chain} {op : PageOp} (chain : s.chain p = c)
    (live : c.live = true) (idle : c.inFlight = none) (sync : c.syncPending = false) (round : c.round = [])
    (queue : c.queue = [op]) (there : present c op.pos = true) :
    QueuesOnly { c with inFlight := some (opCall op) } ((handOutFrom p s).chain p) := by
  have wants : (s.chain p).wants = true := by simp [Chain.wants, chain, live, idle, queue]
  refine handOutFrom_calls wants ?_ (by simp)
  simp [handOut, chain, sync, round, queue, there, sendCall, State.modChain_eq s]

/-- Settles O34: the refusals of a page request in the order of their checks, and what becomes of one that is queued. -/
theorem pageRequestsQueue : Obligations.PageRequestsQueue := by
  unfold Obligations.PageRequestsQueue
  intro s src i tag p k page data h program c kind request run op queued
  have runs (port pos number : Nat) : request port pos number = .next
      (match pageRequest src port pos number data i (reserved s src i kind tag) with
       | (t, some r) => t.post src i r
       | (t, none) => t) := by
    cases data with
    | some bytes => exact next_congr (serveLater_accepted h .modulePageWrite tag _ fun _ => program (by simp))
    | none => exact next_congr (serveLater_accepted h .modulePageRead tag _ fun only => absurd only (by decide))
  have refuses {port pos number : Nat} {st : Status}
      (e : pageRequest src port pos number data i (reserved s src i kind tag) =
        (reserved s src i kind tag, some (Reply.refuse st))) :
      request port pos number = .next (answered s src i kind tag (Reply.refuse st)) := by
    rw [runs, e]
    exact next_congr (post_reserved_eq_answered s src i kind tag _)
  have chain : (reserved s src i kind tag).chain p = c := reserved_chain ..
  refine ⟨fun port pos number out => refuses (pageRequest_out out ..), ⟨rfl, rfl, rfl, rfl⟩,
    fun dead => refuses (pageRequest_refused (by rw [chain]; exact pageRefusal_dead dead k) ..),
    fun live out => refuses (pageRequest_refused (by rw [chain]; exact pageRefusal_noRecord live out) ..),
    fun r live held absent => refuses (pageRequest_refused (by
      rw [chain, pageRefusal_record live held, if_pos absent]) ..),
    fun r live held there => ?_⟩
  have takes : pageRefusal ((reserved s src i kind tag).chain p) k = none := by
    rw [chain, pageRefusal_record live held, if_neg there]
  have taken (room : c.queue.length < 8) :
      run = .next (handOutFrom p ((reserved s src i kind tag).setChain p queued)) := by
    show request p.val (k.val + 1) (pageNumber page) = _
    rw [runs, pageRequest_queued takes (by rwa [chain]), chain]
  refine ⟨fun full => refuses (pageRequest_full takes (by rwa [chain]) ..), fun room => ?_, fun room busy none => ?_⟩
  · have steady := (atPort_setChain (reserved s src i kind tag) p queued).toSteady.trans (steady_handOutFrom p _)
    refine ⟨_, taken room, by rw [steady.slots]; exact slots_reserved s src i kind tag, steady, fun busy => ?_,
      fun idle sync round empty => ?_⟩
    · exact handOutFrom_busy (State.chain_setChain_self ..) busy
    · exact handOutFrom_opCall (c := queued) (op := op) (State.chain_setChain_self ..) live idle sync round
        (congrArg (· ++ [op]) empty) ((present_iff ..).2 ⟨r, held, there⟩)
  · rw [taken room, reserved_setChain, handOutFrom_none]
    intro q
    rw [reserved_chain, State.chain_setChain]
    split
    · exact Chain.wants_heldBack (by simp [Chain.heldBack, queued, Option.isSome_iff_ne_none, busy])
    · exact none q

end Sys2Proof.Machine

namespace Sys2Proof.Machine

open Sys2Proof.Safety

/-! ### The timers of a bring-up (R75, R76, R81) -/

/-- Quiet work is quiet whatever the chains are that it leaves alone. -/
theorem quiet_withChains {s t : State} (h : Quiet s t) (v : Vector Chain 4) :
    Quiet { s with chains := v } { t with chains := v } :=
  { h with chains := fun _ => QueuesOnly.refl _, allChains := rfl }

/-- R76: TRAIN is entered from a state with the marks set, and its first attempt goes out. -/
theorem beginTrain_eq (p : PortId) (s : State) :
    beginTrain p s =
      (changeChain p .train .step (s.setChain p (s.chain p).enterTrain)).setChain p
        { (s.chain p).enterTrain with
          state := .train, inFlight := some .train, trainTries := 1, trainLeft := some 5 } := by
  simp [beginTrain, sendTrain, State.modChain_eq s, State.modChain_eq (changeChain ..), chain_changeChain,
    Chain.enterTrain]

theorem chain_beginTrain (p : PortId) (s : State) :
    (beginTrain p s).chain p =
      { (s.chain p).enterTrain with
        state := .train, inFlight := some .train, trainTries := 1, trainLeft := some 5 } := by
  rw [beginTrain_eq, State.chain_setChain_self]

theorem chain_beginTrain_ne {p q : PortId} (ne : q ≠ p) (s : State) : (beginTrain p s).chain q = s.chain q := by
  rw [beginTrain_eq, State.chain_setChain_ne _ _ ne.symm, chain_of_quiet (quiet_changeChain ..), State.modChain,
    State.chain_setChain_ne _ _ ne.symm, State.chain_setChain_ne _ _ ne.symm]

/-- R76, R96: beside its chain, the entry to TRAIN is quiet. -/
theorem quiet_beginTrain (p : PortId) (s : State) :
    Quiet { s with chains := (beginTrain p s).chains } (beginTrain p s) := by
  have quiet := quiet_withChains (quiet_changeChain p .train .step (s.setChain p (s.chain p).enterTrain))
    (beginTrain p s).chains
  rw [beginTrain_eq] at quiet ⊢
  exact quiet

/-- R78, R98: a record of the same kind and model keeps its pages and its divider. -/
theorem settledRecord_same {o : ModuleRecord} {x : Identity} (kind : o.kind = x.kind) (model : o.model = x.model) :
    settledRecord (some o) x = matchedRecord o x := if_pos ⟨kind, model⟩

/-- R78, R98: any other record is new. -/
theorem settledRecord_other {old : Option ModuleRecord} {x : Identity}
    (other : ∀ o, old = some o → o.kind ≠ x.kind ∨ o.model ≠ x.model) : settledRecord old x = newRecord x := by
  cases old with
  | none => rfl
  | some o => exact if_neg fun ⟨kind, model⟩ => (other o rfl).elim (· kind) (· model)

/-- R78: what every settled record has, matched or new. -/
theorem settledRecord_fresh (old : Option ModuleRecord) (x : Identity) :
    let r := settledRecord old x
    r.kind = x.kind ∧ r.model = x.model ∧ r.valueCount = x.valueCount ∧ r.settleTime = x.settleTime ∧
      r.state = .configuring ∧ r.bucket = 0 ∧ r.misses = 0 ∧ r.failing = false ∧ r.last = none := by
  by_cases same : ∃ o, old = some o ∧ o.kind = x.kind ∧ o.model = x.model
  · obtain ⟨o, rfl, kind, model⟩ := same
    rw [settledRecord_same kind model]
    exact ⟨kind, model, rfl, rfl, rfl, rfl, rfl, rfl, rfl⟩
  · rw [settledRecord_other fun o e => not_and_or.1 fun both => same ⟨o, e, both⟩]
    exact ⟨rfl, rfl, rfl, rfl, rfl, rfl, rfl, rfl, rfl⟩

/-- Settles O35: each timer by whether it runs and its wire is idle, and the record settled by whether it matches. -/
theorem chainTimersSendTrains : Obligations.ChainTimersSendTrains := by
  unfold Obligations.ChainTimersSendTrains
  refine ⟨fun s p => ⟨fun stopped => next_congr (if_neg ?_), fun state runs => ⟨beginTrain p s, next_congr (if_pos ?_),
      chain_beginTrain p s, fun q ne => chain_beginTrain_ne ne s, quiet_beginTrain p s, ?_⟩⟩,
    fun s p => ⟨fun state runs idle => next_congr (if_pos ?_), fun stopped => next_congr (if_neg ?_),
      fun state runs idle => next_congr (if_pos ?_), fun stopped => next_congr (if_neg ?_)⟩,
    fun old x => ?_⟩
  · simp only [Option.isSome_iff_ne_none]
    tauto
  · exact ⟨state, Option.isSome_iff_ne_none.2 runs⟩
  · intro u left
    rw [chain_beginTrain, beginTrain_eq, changeChain_eq, State.chain_setChain_self]
    simp only [u, left, State.chain_setChain_self]
    rw [← state]
    rfl
  · exact ⟨state, Option.isSome_iff_ne_none.2 runs, idle⟩
  · simp only [Option.isSome_iff_ne_none]
    tauto
  · exact ⟨state, Option.isSome_iff_ne_none.2 runs, idle⟩
  · simp only [Option.isSome_iff_ne_none]
    tauto
  · obtain ⟨kind, model, count, time, state, bucket, misses, failing, last⟩ := settledRecord_fresh old x
    refine ⟨kind, model, count, time, state, bucket, misses, failing, last, fun o e kind model => ?_, fun other => ?_⟩
    · rw [e, settledRecord_same kind model]
      exact ⟨rfl, rfl, rfl, rfl, rfl⟩
    · rw [settledRecord_other other]
      exact ⟨rfl, rfl, rfl, rfl, rfl⟩

end Sys2Proof.Machine

namespace Sys2Proof.Machine

open Sys2Proof.Safety

/-! ### SYNC, CALL_SENT and the idle wire (R72, R84, R85, R87) -/

/-- R85: the round and the countdowns of a SYNC. -/
theorem Chain.sync_eq (now : Word) (c : Chain) :
    Chain.sync now c =
      { c with
        inFlight := some (.sync now), roundStamp := now, syncPending := false
        modules := c.modules.map fun r =>
          if r.state = .absent then r
          else if r.countdown ≤ 1 then { r with countdown := r.divider }
          else { r with countdown := r.countdown - 1 }
        round := allPositions.filter fun k =>
          match c.modules[k.val]? with
          | some r => r.state ≠ .absent ∧ r.countdown ≤ 1
          | none => false } := by
  have record (r : ModuleRecord) : (countPoll r).1 =
      if r.state = .absent then r
      else if r.countdown ≤ 1 then { r with countdown := r.divider }
      else { r with countdown := r.countdown - 1 } := by
    unfold countPoll
    split <;> [rfl; (split <;> rfl)]
  have joins (r : ModuleRecord) : (countPoll r).2 = decide (r.state ≠ .absent ∧ r.countdown ≤ 1) := by
    unfold countPoll
    by_cases absent : r.state = .absent <;> by_cases due : r.countdown ≤ 1 <;> simp [absent, due]
  simp only [Chain.sync, record, joins] <;> rfl

/-- R85: a SYNC that is owed goes out first. -/
theorem handOut_sync {s : State} {p : PortId} (owed : (s.chain p).syncPending = true) :
    handOut p s = s.setChain p (Chain.sync s.time (s.chain p)) := by
  unfold handOut
  exact if_pos owed

/-- R85: with no SYNC owed the next module of the round is polled, or passed over. -/
theorem handOut_round {s : State} {p : PortId} {k : ModulePos} {rest : List ModulePos}
    (sync : (s.chain p).syncPending = false) (round : (s.chain p).round = k :: rest) :
    handOut p s = s.setChain p
      { s.chain p with round := rest, inFlight := if present (s.chain p) k then some (.poll k) else none } := by
  simp [handOut, sync, round]

/-- R87, R89: with no SYNC owed and no round the operation at the head of the queue goes out, or ends. -/
theorem handOut_queue {s : State} {p : PortId} {op : PageOp} {rest : List PageOp}
    (sync : (s.chain p).syncPending = false) (round : (s.chain p).round = []) (queue : (s.chain p).queue = op :: rest) :
    handOut p s = if present (s.chain p) op.pos then s.setChain p { s.chain p with inFlight := some (opCall op) }
      else endHead p op .failed s := by
  simp [handOut, sync, round, queue, sendCall, State.modChain_eq s]

theorem handOut_nothing {s : State} {p : PortId} (sync : (s.chain p).syncPending = false)
    (round : (s.chain p).round = []) (queue : (s.chain p).queue = []) : handOut p s = s := by
  simp [handOut, sync, round, queue]

theorem exec_syncTimerExpiry {s : State} {p : PortId} (live : (s.chain p).live = true)
    (runs : (s.chain p).syncLeft ≠ none) :
    exec (.syncTimerExpiry p) s = .next (handOutFrom p (s.setChain p
      { s.chain p with syncPending := true, syncLeft := some (s.chain p).syncPeriod })) :=
  next_congr (if_pos ⟨live, Option.isSome_iff_ne_none.2 runs⟩)

theorem exec_callSent_sync {s : State} {p : PortId} {stamp : Word} (call : (s.chain p).inFlight = some (.sync stamp)) :
    exec (.callSent p) s = .next (handOutFrom p (s.setChain p { s.chain p with inFlight := none })) := by
  refine next_congr ?_
  simp [callSent, call, State.modChain_eq s]

/-- Settles O36: the SYNC timer by its chain and its wire, CALL_SENT by its call, and an idle wire by what waits. -/
theorem syncTimerAndCallSent : Obligations.SyncTimerAndCallSent := by
  unfold Obligations.SyncTimerAndCallSent
  refine ⟨fun s p => ⟨fun stopped => next_congr (if_neg ?_), fun live runs =>
      ⟨_, exec_syncTimerExpiry live runs, (atPort_setChain s p _).toSteady.trans (steady_handOutFrom p _),
        fun busy => handOutFrom_busy (State.chain_setChain_self ..) busy, fun idle => ?_, fun q ne held => ?_⟩⟩,
    fun s p => ⟨fun call => next_congr ?_, fun stamp k rest call live sync round there =>
      ⟨_, exec_callSent_sync call, (atPort_setChain s p _).toSteady.trans (steady_handOutFrom p _), ?_⟩,
      fun stamp call sync round queue none => ?_, fun other => next_congr ?_⟩,
    fun s p => ⟨fun owed => ⟨_, handOut_sync owed, rfl, rfl, rfl, rfl⟩, fun k rest sync round => ?_,
      fun op rest sync round queue => ?_, handOut_nothing⟩⟩
  · simp only [Option.isSome_iff_ne_none]
    rcases stopped with stopped | stopped <;> simp [stopped]
  · refine handOutFrom_calls (by simp [Chain.wants, idle]; exact live) ?_ (by simp)
    rw [handOut_sync (by rw [State.chain_setChain_self]), State.chain_setChain_self, Chain.sync_eq,
      State.chain_setChain_self]
    rfl
  · have same : (s.setChain p { s.chain p with syncPending := true, syncLeft := some (s.chain p).syncPeriod }).chain q
        = s.chain q := State.chain_setChain_ne _ _ ne.symm
    rcases held with busy | dead
    · exact handOutFrom_busy same busy
    · exact handOutFrom_dead same dead
  · simp [callSent, call, State.modChain_eq s]
  · refine handOutFrom_calls (by simp [Chain.wants, round]; exact live) ?_ (by simp)
    rw [handOut_round (by rw [State.chain_setChain_self]; exact sync) (by rw [State.chain_setChain_self]; exact round),
      State.chain_setChain_self, State.chain_setChain_self, if_pos]
    exact there
  · rw [exec_callSent_sync call, handOutFrom_none]
    intro q
    rw [State.chain_setChain]
    split
    · simp [Chain.wants, sync, round, queue]
    · exact none q
  · unfold callSent
    split
    · exact absurd ‹_› other.1
    · exact absurd ‹_› (other.2 _)
    · rfl
  · rw [handOut_round sync round]
    exact ⟨fun there => by rw [if_pos ((present_iff ..).2 there)],
      fun gone => by rw [if_neg (mt (present_iff ..).1 gone)]⟩
  · rw [handOut_queue sync round queue]
    exact ⟨fun there => if_pos ((present_iff ..).2 there), fun gone => if_neg (mt (present_iff ..).1 gone)⟩

end Sys2Proof.Machine

namespace Sys2Proof.Machine

open Sys2Proof.Safety

/-! ### Every module made ABSENT, one after the other (R74, R92, R99) -/

/-- The module at a position is there and not ABSENT. -/
def presentAt (s : State) (p : PortId) (k : ModulePos) : Bool := (s.module p k).any fun r => decide (r.state ≠ .absent)

/-- R99: a module that is not ABSENT is made so. -/
theorem absentModule_eq (p : PortId) (k : ModulePos) (cause : ModuleCause) (s : State) :
    absentModule p k cause s =
      if presentAt s p k then (changeModule p k cause absentRecord s, [k]) else (s, []) := by
  unfold absentModule presentAt
  cases s.module p k with
  | none => rfl
  | some r => by_cases absent : r.state = .absent <;> simp [absent]

/-- R99: a module changed leaves the modules at the other positions. -/
theorem module_changeModule_ne {p : PortId} {j k : ModulePos} (ne : j ≠ k) (cause : ModuleCause)
    (f : ModuleRecord → ModuleRecord) (s : State) : (changeModule p k cause f s).module p j = s.module p j := by
  cases held : s.module p k with
  | none => simp [changeModule, held]
  | some r =>
    rw [State.module_eq, chain_changeModule held, State.module_eq]
    exact List.getElem?_set_ne fun e => ne (Fin.ext e.symm)

/-- R74, R92: the modules of a list made ABSENT in order are those that are not so yet. -/
theorem foldl_absentModule {p : PortId} (cause : ModuleCause) {xs : List ModulePos} (nodup : xs.Nodup)
    (s : State) (done : List ModulePos) :
    xs.foldl (fun acc k =>
        let (t, changed) := absentModule p k cause acc.1
        (t, acc.2 ++ changed)) (s, done) =
      ((xs.filter (presentAt s p)).foldl (fun u k => changeModule p k cause absentRecord u) s,
        done ++ xs.filter (presentAt s p)) := by
  induction xs generalizing s done with
  | nil => simp
  | cons k rest ih =>
    obtain ⟨fresh, nodup⟩ := List.nodup_cons.1 nodup
    have later : rest.filter (presentAt (changeModule p k cause absentRecord s) p) = rest.filter (presentAt s p) :=
      List.filter_congr fun j mem => by
        have ne : j ≠ k := fun e => fresh (by rwa [← e])
        unfold presentAt
        rw [module_changeModule_ne ne]
    rw [List.foldl_cons, absentModule_eq]
    cases there : presentAt s p k
    · simp [ih nodup, there]
    · simp [ih nodup, there, later]

/-- R74, R92: the modules that a stop of the chain's work makes ABSENT. -/
def toAbsent (s : State) (p : PortId) : List ModulePos := allPositions.filter (presentAt s p)

theorem absentAll_eq (p : PortId) (cause : ModuleCause) (s : State) :
    absentAll p cause s =
      ((toAbsent s p).foldl (fun u k => changeModule p k cause absentRecord u) s, toAbsent s p) := by
  have nodup : (heldPositions (s.chain p)).Nodup :=
    List.Nodup.filter _ (show allPositions.Nodup by decide)
  have held : (heldPositions (s.chain p)).filter (presentAt s p) = toAbsent s p := by
    unfold heldPositions toAbsent
    rw [List.filter_filter]
    refine List.filter_congr fun k _ => ?_
    unfold presentAt
    rw [State.module_eq]
    by_cases inside : k.val < (s.chain p).modules.length
    · simp [inside]
    · rw [List.getElem?_eq_none (by omega)]
      rfl
  unfold absentAll
  rw [foldl_absentModule cause nodup, held, List.nil_append]

theorem toAbsent_halted (s : State) (p : PortId) (call : Option Call) :
    toAbsent (s.setChain p (Chain.halted call (s.chain p))) p = toAbsent s p := by
  unfold toAbsent presentAt
  simp only [State.module_eq, State.chain_setChain_self]
  rfl

/-- R74, R104: the entry to bring-up, step by step. -/
theorem enterBringUp_eq (p : PortId) (cause : ChainCause) (before : List ModulePos) (s : State) :
    enterBringUp p cause before s =
      moduleReport p (before ++ toAbsent s p) (changeChain p .reset cause
        ((toAbsent s p).foldl (fun u k => changeModule p k .bringUp absentRecord u)
          (s.setChain p (Chain.halted (some .resetAll) (s.chain p))))) := by
  unfold enterBringUp
  rw [State.modChain_eq, absentAll_eq, toAbsent_halted]

/-- R92, R104: the entry to OFF, step by step. -/
theorem enterOff_eq (p : PortId) (s : State) :
    enterOff p s =
      moduleReport p (toAbsent s p) (changeChain p .off .request
        ((toAbsent s p).foldl (fun u k => changeModule p k .off absentRecord u)
          (s.setChain p (Chain.halted none (s.chain p))))) := by
  unfold enterOff
  rw [State.modChain_eq, absentAll_eq, toAbsent_halted]

/-! ### What an abort answers (R92) -/

theorem waiting_post (s : State) (a src : Source) (i : Fin 8) (r : Reply) :
    ((s.post a i r).link src).waiting =
      (s.link src).waiting ++
        if a = src then ((s.link src).slots[i].map fun use => ⟨i, use.kind + 0x80#8, use.tag, r⟩).toList else [] := by
  by_cases same : a = src
  · subst same
    rw [State.post, State.link_setLink_self, if_pos rfl]
    unfold LinkUnit.post
    cases (s.link a).slots[i] <;> simp
  · rw [State.post, State.link_setLink_ne s _ same, if_neg same, List.append_nil]

/-- R92: an operation aborted answers its request, and nothing else. -/
theorem waiting_abortOp (s : State) (op : PageOp) (src : Source) :
    ((abortOp s op).link src).waiting = (s.link src).waiting ++ abortedReplies s src [op] := by
  unfold abortOp abortedReplies
  rw [List.filterMap_cons, List.filterMap_nil]
  cases op.origin with
  | request a slot =>
    dsimp only
    rw [waiting_post]
    by_cases same : a = src
    · rw [if_pos same, if_pos same]
      cases (s.link src).slots[slot] <;> rfl
    · rw [if_neg same, if_neg same]
  | copy =>
    have calm := (calm_copyWriteEnded false s).links src
    rw [calm]
    exact (List.append_nil _).symm
  | orphan => exact (List.append_nil _).symm

theorem abortedReplies_cons (s : State) (src : Source) (op : PageOp) (ops : List PageOp) :
    abortedReplies s src (op :: ops) = abortedReplies s src [op] ++ abortedReplies s src ops :=
  List.filterMap_append (l := [op])

theorem abortedReplies_append (s : State) (src : Source) (xs ys : List PageOp) :
    abortedReplies s src (xs ++ ys) = abortedReplies s src xs ++ abortedReplies s src ys := List.filterMap_append

/-- R92: the ABORTED replies depend on the reply slots alone. -/
theorem abortedReplies_congr {s t : State} {src : Source} (slots : (t.link src).slots = (s.link src).slots)
    (ops : List PageOp) : abortedReplies t src ops = abortedReplies s src ops := by
  unfold abortedReplies
  rw [slots]

/-- R92: the operations of a queue aborted one after the other answer their requests in order. -/
theorem waiting_foldl_abortOp (ops : List PageOp) (s : State) (src : Source) :
    ((ops.foldl abortOp s).link src).waiting = (s.link src).waiting ++ abortedReplies s src ops := by
  induction ops generalizing s with
  | nil => exact (List.append_nil _).symm
  | cons op rest ih =>
    have slots := (atPort_abortOp 0 s op).slots src
    rw [List.foldl_cons, ih, waiting_abortOp, abortedReplies_congr slots, abortedReplies_cons s src op rest,
      List.append_assoc]

/-- R92: abandoned work answers the requests of the queue first. -/
theorem waiting_abortWork (p : PortId) (s : State) (src : Source) :
    (s.link src).waiting ++ abortedReplies s src (s.chain p).queue <+: ((abortWork p s).link src).waiting := by
  have first : abortWork p s =
      if (s.chain p).queue = [] ∧ (s.chain p).aside = [] then s.setChain p { s.chain p with inFlight := none }
      else abortQueue p 16 (((s.chain p).queue ++ (s.chain p).aside).foldl abortOp
        (s.setChain p { s.chain p with inFlight := none, queue := [], aside := [] })) := by
    unfold abortWork
    rw [abortQueue, State.modChain_eq s]
    simp only [State.chain_setChain_self, State.setChain_setChain]
  rw [first]
  split
  next empty =>
    rw [empty.1]
    exact (List.append_nil _).symm ▸ List.prefix_rfl
  next =>
    refine List.IsPrefix.trans ?_ ((atPort_abortQueue p 16 _).waiting src)
    rw [waiting_foldl_abortOp, abortedReplies_append, ← List.append_assoc]
    exact List.prefix_append _ _

/-- R92: abandoned work leaves the chain with its wire idle and its queues empty. -/
theorem chain_abortWork_eq (p : PortId) (s : State) :
    (abortWork p s).chain p = { s.chain p with inFlight := none, queue := [], aside := [] } := by
  obtain ⟨queue, aside⟩ := abortWork_empties p s
  have only := chain_abortWork p s
  unfold QueuesOnly at only
  rw [queue, aside] at only
  exact only

/-! ### CHAIN_RESTART (R74, R83, R92) -/

/-- R92: the state that a CHAIN_RESTART enters bring-up or OFF from. -/
def restartBase (p : PortId) (s : State) : State := (abortWork p s).modChain p fun c => { c with faultCount := 0 }

theorem chain_restartBase (p : PortId) (s : State) :
    (restartBase p s).chain p =
      { s.chain p with inFlight := none, queue := [], aside := [], faultCount := 0 } := by
  rw [restartBase, State.chain_modChain_self, chain_abortWork_eq]

/-- R92: what an entry from the restart's base has done, with the wires handed out after it. -/
theorem restart_worked {p : PortId} {s t : State} {st : ChainState} {call : Option Call}
    (steady : Steady (restartBase p s) t)
    (stopped : Stopped st call ((restartBase p s).chain p) (t.chain p))
    (count : (t.chain p).faultCount = ((restartBase p s).chain p).faultCount) (unworked : (t.chain p).Unworked) :
    let u := handOutFrom p t
    Stopped st call (s.chain p) (u.chain p) ∧ (u.chain p).faultCount = 0 ∧ (u.chain p).queue = [] ∧
      (u.chain p).aside = [] ∧ Steady s u ∧
      ∀ src, (s.link src).waiting ++ abortedReplies s src (s.chain p).queue <+: (u.link src).waiting := by
  intro u
  have same : u.chain p = t.chain p := rests_handOutFrom p p t unworked
  have later : Steady (abortWork p s) u :=
    ((atPort_modChain _ p _).toSteady.trans steady).trans (steady_handOutFrom p t)
  rw [chain_restartBase] at stopped count
  rw [same]
  exact ⟨stopped.of rfl ⟨rfl, rfl, rfl, rfl, rfl, rfl⟩, count, unworked.2.1, unworked.2.2,
    (atPort_abortWork p s).toSteady.trans later, fun src => (waiting_abortWork p s src).trans (later.waiting src)⟩

theorem exec_chainRestart {s t : State} {i : Fin 8} (h : Accepts s .program i) {tag : Byte} {port : Nat}
    {option : Coded RestartOption} {r : Reply}
    (e : chainRestart port option (reserved s .program i 0x20#8 tag) = (t, r)) :
    exec (.chainRestart .program tag port option) s = .next (t.post .program i r) := by
  refine next_congr ((serve_accepted h .chainRestart tag _ fun _ => rfl).trans ?_)
  rw [show RequestKind.code .chainRestart = 0x20#8 from rfl, e]

theorem chainRestart_restart (p : PortId) (s : State) :
    chainRestart p.val (.known .restart) s =
      (handOutFrom p (enterBringUp p .request [] (restartBase p s)), ⟨.accepted, false, .empty⟩) := by
  unfold chainRestart
  rw [index_val]
  rfl

theorem chainRestart_off {p : PortId} {s : State} (on : (s.chain p).state ≠ .off) :
    chainRestart p.val (.known .off) s =
      (handOutFrom p (enterOff p (restartBase p s)), Reply.ok false .empty) := by
  unfold chainRestart
  rw [index_val]
  exact if_neg on

theorem chainRestart_offAlready {p : PortId} {s : State} (off : (s.chain p).state = .off) :
    chainRestart p.val (.known .off) s = (s, Reply.ok false .empty) := by
  unfold chainRestart
  rw [index_val]
  exact if_pos off

/-- R92: an option, or a port, out of range. -/
theorem chainRestart_out {port : Nat} {option : Coded RestartOption} (out : option = .outside ∨ 4 ≤ port) (s : State) :
    chainRestart port option s = (s, Reply.refuse .badValue) := by
  unfold chainRestart
  rcases out with out | out
  · subst out
    cases index 4 port <;> rfl
  · rw [index_of_le out]

/-- R74, R82: a retry of a chain in FAULT. -/
theorem faultRetry_begins {p : PortId} {s : State} (fault : (s.chain p).state = .fault)
    (runs : (s.chain p).retryLeft ≠ none) :
    faultRetry p s = handOutFrom p (enterBringUp p .retry [] s) :=
  if_pos ⟨fault, Option.isSome_iff_ne_none.2 runs⟩

/-- Settles O31: CHAIN_RESTART by its option and the chain's state, the retry timer by whether it runs, and the order of
what a change of state, a bring-up and OFF place. -/
theorem bringUpBegins : Obligations.BringUpBegins := by
  unfold Obligations.BringUpBegins
  refine ⟨fun s i tag p h => ?_, fun s p => ⟨fun fault runs => ?_, fun stopped => next_congr (if_neg ?_)⟩,
    fun s p st cause => changeChain_eq p st cause s,
    fun s p cause before => ⟨enterBringUp_eq p cause before s, enterOff_eq p s,
      abortWork p s, rfl, chain_abortWork_eq p s⟩⟩
  · intro c start worked
    have chain : start.chain p = c := reserved_chain ..
    have base : (restartBase p start).chain p =
        { c with inFlight := none, queue := [], aside := [], faultCount := 0 } := by rw [chain_restartBase, chain]
    have emptied : ((restartBase p start).chain p).queue = [] ∧ ((restartBase p start).chain p).aside = [] := by
      rw [base]
      exact ⟨rfl, rfl⟩
    have answers {port : Nat} {option : Coded RestartOption} {r : Reply}
        (e : chainRestart port option start = (start, r)) :
        exec (.chainRestart .program tag port option) s = .next (answered s .program i 0x20#8 tag r) :=
      (exec_chainRestart h e).trans (next_congr (post_reserved_eq_answered s .program i 0x20#8 tag r))
    refine ⟨⟨handOutFrom p (enterBringUp p .request [] (restartBase p start)),
        exec_chainRestart h (chainRestart_restart p start), ?_⟩,
      fun off => answers (chainRestart_offAlready (by rw [chain]; exact off)), fun on =>
      ⟨handOutFrom p (enterOff p (restartBase p start)),
        exec_chainRestart h (chainRestart_off (by rw [chain]; exact on)), ?_⟩,
      answers (chainRestart_out (.inl rfl) start), fun n o out => answers (chainRestart_out (.inr out) start)⟩
    · obtain ⟨stopped, count⟩ := stopped_enterBringUp p .request [] (restartBase p start)
      obtain ⟨whole, faults, queue, aside, steady, waiting⟩ := restart_worked
        (atPort_enterBringUp p .request [] _).toSteady stopped count (unworked_enterBringUp p .request [] emptied)
      rw [chain] at whole waiting
      exact ⟨whole, ⟨faults, queue, aside, steady, waiting⟩, restartBase p start, rfl, base⟩
    · obtain ⟨stopped, count⟩ := stopped_enterOff p (restartBase p start)
      obtain ⟨whole, faults, queue, aside, steady, waiting⟩ := restart_worked
        (atPort_enterOff p _).toSteady stopped count (unworked_enterOff p emptied)
      rw [chain] at whole waiting
      exact ⟨whole, ⟨faults, queue, aside, steady, waiting⟩, restartBase p start, rfl, base⟩
  · obtain ⟨stopped, count⟩ := stopped_enterBringUp p .retry [] s
    have busy : ((enterBringUp p .retry [] s).chain p).inFlight ≠ none := by
      rw [stopped.call]
      exact Option.some_ne_none _
    have queues := handOutFrom_busy (p := p) rfl busy
    refine ⟨_, next_congr (faultRetry_begins fault runs), stopped.queues queues, ?_,
      (atPort_enterBringUp p .retry [] s).toSteady.trans (steady_handOutFrom p _), rfl⟩
    rw [queues]
    exact count
  · simp only [Option.isSome_iff_ne_none]
    tauto

end Sys2Proof.Machine

namespace Sys2Proof.Machine

open Sys2Proof.Safety

/-! ### The record of one module (R83, R99, R104) -/

theorem module_of_queues {s t : State} {p : PortId} (h : QueuesOnly (s.chain p) (t.chain p)) (k : ModulePos) :
    t.module p k = s.module p k := by
  rw [State.module_eq, h, State.module_eq]

theorem module_of_calm {s t : State} (h : Calm s t) (p : PortId) (k : ModulePos) : t.module p k = s.module p k :=
  module_of_queues (h.chains p) k

theorem module_changeModule {s : State} {p : PortId} {k : ModulePos} {r : ModuleRecord} (held : s.module p k = some r)
    (cause : ModuleCause) (f : ModuleRecord → ModuleRecord) :
    (changeModule p k cause f s).module p k = some (f r) := by
  have inside : k.val < (s.chain p).modules.length := (List.getElem?_eq_some_iff.1 held).1
  simp [State.module_eq, chain_changeModule held, inside]

theorem module_changeChain (p : PortId) (st : ChainState) (cause : ChainCause) (s : State) (k : ModulePos) :
    (changeChain p st cause s).module p k = s.module p k := by
  rw [State.module_eq, chain_changeChain, State.module_eq]

/-- R83: a restart keeps the record of a module that is ABSENT, and makes any other ABSENT. -/
theorem module_restartChain (p : PortId) (cause : ChainCause) (ks : List ModulePos) (s : State) (k : ModulePos) :
    (restartChain p cause ks s).module p k = (s.module p k).map absentOnce := by
  obtain ⟨ms, queues, -, records⟩ := chain_enterBringUp p cause ks (abortWork p s)
  unfold restartChain
  rw [State.module_eq, queues]
  exact (records k).trans (by rw [chain_abortWork_eq, State.module_eq])

theorem absentOnce_of_absent {r : ModuleRecord} (absent : r.state = .absent) : absentOnce r = r := if_pos absent

/-- R83: what follows from an absence is judged by the modules as they stand. -/
theorem afterAbsence_eq (p : PortId) (ks : List ModulePos) (s : State) :
    let t := if (s.chain p).state = .active then changeChain p .degraded .moduleAbsent s else s
    afterAbsence p true ks s =
      if ∀ r ∈ (s.chain p).modules, r.state = .absent then restartChain p .allAbsent ks t else moduleReport p ks t := by
  intro t
  have modules : (t.chain p).modules = (s.chain p).modules := by
    unfold t
    split
    · rw [chain_changeChain]
    · rfl
  have all : ((t.chain p).modules.all fun r => decide (r.state = .absent)) = true ↔
      ∀ r ∈ (s.chain p).modules, r.state = .absent := by
    rw [modules, List.all_eq_true]
    exact forall₂_congr fun r _ => decide_eq_true_iff
  unfold afterAbsence
  simp only [if_true]
  exact if_congr all rfl rfl

/-- R83: the record of a module, through what follows from its absence, or from a change of it that is none. -/
theorem module_afterAbsence {s : State} {p : PortId} {k : ModulePos} {r : ModuleRecord} {gone : Bool}
    (held : s.module p k = some r) (absent : gone = true → r.state = .absent) (ks : List ModulePos) :
    (afterAbsence p gone ks s).module p k = some r := by
  cases gone with
  | false => exact (module_of_calm (calm_moduleReport p ks s) p k).trans held
  | true =>
    have degraded : (if (s.chain p).state = .active then changeChain p .degraded .moduleAbsent s else s).module p k =
        some r := by
      split
      · exact (module_changeChain ..).trans held
      · exact held
    rw [afterAbsence_eq]
    split
    · rw [module_restartChain, degraded, Option.map_some, absentOnce_of_absent (absent rfl)]
    · exact (module_of_calm (calm_moduleReport p ks _) p k).trans degraded

/-- R87: a hand-out of the wires keeps a record but for its poll countdown. -/
theorem module_handOutFrom {s : State} {p : PortId} {k : ModulePos} {r : ModuleRecord} (held : s.module p k = some r)
    (q : PortId) : ∃ r', (handOutFrom q s).module p k = some r' ∧ storedModule r' = storedModule r :=
  record_of_stored (storedModules_handOutFrom q p s) held

/-- Records alike but for their poll countdowns agree on what a charge and a change of state touch. -/
theorem storedModule_fields {a b : ModuleRecord} (same : storedModule a = storedModule b) :
    a.state = b.state ∧ a.settleLeft = b.settleLeft ∧ a.bucket = b.bucket ∧ a.misses = b.misses ∧ a.last = b.last :=
  ⟨(congrArg ModuleRecord.state same :), (congrArg ModuleRecord.settleLeft same :),
    (congrArg ModuleRecord.bucket same :), (congrArg ModuleRecord.misses same :), (congrArg ModuleRecord.last same :)⟩

/-! ### Outcomes charged (R100, R101, R104) -/

theorem judgeFailing_set (threshold bucket : Nat) :
    judgeFailing threshold false bucket = true ↔ threshold ≤ bucket := by
  simp [judgeFailing]

theorem judgeFailing_cleared (threshold bucket : Nat) :
    judgeFailing threshold true bucket = false ↔ bucket < threshold / 2 := by
  simp [judgeFailing]

/-- R101: FAILING of a charged record is judged by its new bucket; what the charge does not name stays. -/
theorem chargeModule_failing (threshold : Nat) (o : TransactionOutcome) (r : ModuleRecord) :
    let x := chargeModule threshold o r
    (r.failing = false → (x.failing = true ↔ threshold ≤ x.bucket)) ∧
      (r.failing = true → (x.failing = false ↔ x.bucket < threshold / 2)) ∧
      x.state = r.state ∧ x.format = r.format ∧ x.range = r.range ∧ x.rate = r.rate ∧ x.start = r.start ∧
      x.last = r.last := by
  intro x
  have judged : x.failing = judgeFailing threshold r.failing x.bucket := rfl
  refine ⟨fun clear => ?_, fun set => ?_, rfl, rfl, rfl, rfl, rfl, rfl⟩
  · rw [judged, clear]
    exact judgeFailing_set threshold x.bucket
  · rw [judged, set]
    exact judgeFailing_cleared threshold x.bucket

/-- R104: the notice of a charged outcome, where the module has a record as it stands after. -/
theorem chargeNotice_eq (p : PortId) (k : ModulePos) (before after : ModuleRecord) (s : State) :
    chargeNotice p k before after s =
      if after.state = .absent ∧ before.state ≠ .absent then (moduleNotice p k before.state .misses s, [k])
      else if after.failing ≠ before.failing then
        (moduleNotice p k after.state (if after.failing then .failingSet else .failingCleared) s, [k])
      else (s, []) := rfl

theorem moduleNotice_eq {s : State} {p : PortId} {k : ModulePos} {r : ModuleRecord} (held : s.module p k = some r)
    (left : ModuleState) (cause : ModuleCause) :
    moduleNotice p k left cause s =
      s.placeBoth (.moduleState p k r.kind r.model left r.state cause r.failing r.bucket r.misses s.time) := by
  unfold moduleNotice
  rw [held]

theorem changeModule_eq {s : State} {p : PortId} {k : ModulePos} {r : ModuleRecord} (held : s.module p k = some r)
    (cause : ModuleCause) (f : ModuleRecord → ModuleRecord) :
    changeModule p k cause f s = moduleNotice p k r.state cause
      (if r.state = .ready ∧ (f r).state ≠ .ready then staleServed p k (s.setModule p k (f r))
       else s.setModule p k (f r)) := by
  unfold changeModule
  rw [held]

theorem enterSettling_eq {s : State} {p : PortId} {k : ModulePos} {r : ModuleRecord} (held : s.module p k = some r)
    (cause : ModuleCause) :
    enterSettling p k cause s =
      if r.settleTime = 0 then changeModule p k .settled readyRecord (changeModule p k cause settlingRecord s)
      else changeModule p k cause settlingRecord s := by
  unfold enterSettling
  dsimp only
  rw [module_changeModule held]
  rfl

/-! ### The channel that a module serves (R110) -/

theorem nodup_allChannels : allChannels.Nodup := by decide

theorem channel_staleServed (p : PortId) (k : ModulePos) (s : State) (ch : ChannelId) :
    (staleServed p k s).channel ch =
      if Channel.servingModule (s.channel ch) = some ⟨p, k⟩ then staleChannel (s.channel ch) else s.channel ch := by
  refine (foldl_pointwise (get := State.channel)
    (g := fun _ c => if Channel.servingModule c = some ⟨p, k⟩ then staleChannel c else c) (fun t i j => ?_)
    nodup_allChannels s ch).trans (if_pos (mem_allChannels ch))
  by_cases here : i = j
  · subst here
    rw [if_pos rfl]
    split
    · exact State.channel_setChannel_self t i _
    · rfl
  · rw [if_neg here]
    split
    · exact State.channel_setChannel_ne t _ here
    · rfl

theorem staleServed_frame (p : PortId) (k : ModulePos) (s : State) :
    staleServed p k s = { s with channels := (staleServed p k s).channels } := by
  unfold staleServed
  generalize allChannels = xs
  induction xs generalizing s with
  | nil => rfl
  | cons ch rest ih =>
    rw [List.foldl_cons, ih]
    split <;> rfl

/-! ### SETTLE_EXPIRY and MISSES_ABSENT (R99, R100) -/

theorem exec_settleExpiry {s : State} {p : PortId} {k : ModulePos} {r : ModuleRecord} (held : s.module p k = some r)
    (settling : r.state = .settling) :
    exec (.settleExpiry p k) s =
      .next (handOutFrom p (moduleReport p [k] (changeModule p k .settled readyRecord s))) := by
  refine next_congr ?_
  unfold settleExpiry
  rw [held]
  exact if_pos settling

theorem exec_settleExpiry_none {s : State} {p : PortId} {k : ModulePos}
    (none : ∀ r, s.module p k = some r → r.state ≠ .settling) : exec (.settleExpiry p k) s = .next s := by
  refine next_congr ?_
  unfold settleExpiry
  split
  · rfl
  · next r held => exact if_neg (none r held)

/-- R99, R100: the record of a module at which the misses have reached 4. -/
def missedRecord (r : ModuleRecord) : ModuleRecord := absentRecord { r with misses := 4 }

theorem exec_missesAbsent {s : State} {p : PortId} {k : ModulePos} {r : ModuleRecord} (held : s.module p k = some r)
    (live : (s.chain p).live = true) (works : r.state = .settling ∨ r.state = .ready) :
    exec (.missesAbsent p k) s =
      .next (handOutFrom p (afterAbsence p true [k] (changeModule p k .misses missedRecord s))) := by
  refine next_congr ?_
  unfold missesAbsent
  rw [held]
  exact if_pos ⟨live, works⟩

theorem exec_missesAbsent_none {s : State} {p : PortId} {k : ModulePos}
    (none : (s.chain p).live = false ∨ ∀ r, s.module p k = some r → r.state ≠ .settling ∧ r.state ≠ .ready) :
    exec (.missesAbsent p k) s = .next s := by
  refine next_congr ?_
  unfold missesAbsent
  split
  · rfl
  · next r held =>
    refine if_neg fun ⟨live, works⟩ => ?_
    rcases none with dead | none
    · exact absurd live (by rw [dead]; decide)
    · exact works.elim (none r held).1 (none r held).2

/-- Settles O40: SETTLE_EXPIRY and MISSES_ABSENT by the module's state, and one equation for each operation that
charges, changes or reports a module. -/
theorem moduleEventsChangeState : Obligations.ModuleEventsChangeState := by
  unfold Obligations.ModuleEventsChangeState
  refine ⟨fun s p k => ⟨fun r held settling => ?_, exec_settleExpiry_none, fun r held live works => ?_,
      exec_missesAbsent_none⟩,
    fun threshold r => ⟨rfl, rfl, rfl, rfl, rfl, rfl, fun x mem => ?_⟩, fun threshold o r => rfl,
    fun s p k r r1 left cause f held => ⟨moduleNotice_eq held left cause, changeModule_eq held cause f,
      enterSettling_eq held cause, chargeNotice_eq p k r1 r s, exec_missesAbsent held⟩,
    fun s p k => ⟨staleServed_frame p k s, channel_staleServed p k s⟩,
    fun s p ks => ⟨afterAbsence_eq p ks s, rfl⟩⟩
  · have ready := (module_of_calm (calm_moduleReport p [k] _) p k).trans
      (module_changeModule held .settled readyRecord)
    obtain ⟨r', found, same⟩ := module_handOutFrom ready p
    obtain ⟨state, settleLeft, -⟩ := storedModule_fields same
    exact ⟨_, r', exec_settleExpiry held settling, ((atPort_changeModule p k .settled readyRecord s).trans
      (atPort_moduleReport p p [k] _)).toSteady.trans (steady_handOutFrom p _), found, state, settleLeft⟩
  · have absent := module_afterAbsence (gone := true) (module_changeModule held .misses missedRecord) (fun _ => rfl) [k]
    obtain ⟨r', found, same⟩ := module_handOutFrom absent p
    obtain ⟨state, settleLeft, -⟩ := storedModule_fields same
    exact ⟨_, r', exec_missesAbsent held live works, ((atPort_changeModule p k .misses missedRecord s).trans
      (atPort_afterAbsence p true [k] _)).toSteady.trans (steady_handOutFrom p _), found, state, settleLeft⟩
  · simp only [List.mem_cons, List.not_mem_nil, or_false] at mem
    rcases mem with rfl | rfl | rfl <;> exact chargeModule_failing ..

end Sys2Proof.Machine

namespace Sys2Proof.Machine

open Sys2Proof.Safety

/-! ### What the wires carried, and what a transaction ends with (R71 to R73) -/

theorem Heard.isComplete_iff (x : Heard) : x.isComplete = true ↔ x ≠ .silent := by cases x <;> simp [Heard.isComplete]

theorem Heard.isGood_iff (x : Heard) : x.isGood = true ↔ ∃ y, x = .good y := by cases x <;> simp [Heard.isGood]

theorem hear_isComplete (c : Chain) (call : Call) (a b : WireAnswer) (w : Wire) :
    ((hear c call a b).on w).isComplete = true ↔ copyOn c a b w ≠ .silent := by
  rw [Heard.isComplete_iff]
  exact not_congr (hear_silent c call a b w)

theorem hear_isGood (c : Chain) (call : Call) (a b : WireAnswer) (w : Wire) :
    ((hear c call a b).on w).isGood = true ↔ ∃ y, GoodCopy c call a b w y := by
  rw [Heard.isGood_iff]
  exact exists_congr fun y => hear_good c call a b w y

/-- R72, R76: the wires decide a transaction when every usable one has a copy, or the selected one a good copy of a call
other than TRAIN. -/
theorem decisive_iff (c : Chain) (call : Call) (a b : WireAnswer) :
    decisive c call (hear c call a b) = true ↔
      (∀ w, c.failedWire w = true ∨ copyOn c a b w ≠ .silent) ∨
        (call ≠ .train ∧ ∃ y, GoodCopy c call a b c.selected y) := by
  have all : allComplete c (hear c call a b) = true ↔ ∀ w, c.failedWire w = true ∨ copyOn c a b w ≠ .silent := by
    unfold allComplete
    rw [Bool.and_eq_true, Bool.or_eq_true, Bool.or_eq_true]
    refine ⟨fun ⟨onA, onB⟩ w => ?_, fun on => ⟨?_, ?_⟩⟩
    · cases w
      · exact onA.imp id (hear_isComplete c call a b .retA).1
      · exact onB.imp id (hear_isComplete c call a b .retB).1
    · exact (on .retA).imp id (hear_isComplete c call a b .retA).2
    · exact (on .retB).imp id (hear_isComplete c call a b .retB).2
  unfold decisive
  rw [Bool.or_eq_true, Bool.and_eq_true, all, hear_isGood, decide_eq_true_iff]

/-- R71: a good copy on the selected wire decides the result. -/
theorem outcome_selected {s : State} {p : PortId} {call : Call} {a b : WireAnswer} {y : Answer}
    (good : GoodCopy (s.chain p) call a b (s.chain p).selected y) : outcome s p call a b = .answered y false := by
  unfold outcome resultOf
  rw [(hear_good ..).2 good]

/-- R73: a good copy on the other wire alone decides the result, and swaps the wires. -/
theorem outcome_other {s : State} {p : PortId} {call : Call} {a b : WireAnswer} {y : Answer}
    (none : ∀ z, ¬GoodCopy (s.chain p) call a b (s.chain p).selected z)
    (good : GoodCopy (s.chain p) call a b (otherWire (s.chain p).selected) y) :
    outcome s p call a b = .answered y true := by
  unfold outcome resultOf
  rw [(hear_good ..).2 good]
  cases heard : (hear (s.chain p) call a b).on (s.chain p).selected with
  | silent => rfl
  | bad => rfl
  | good z => exact absurd ((hear_good ..).1 heard) (none z)

/-- R72: without a good copy the transaction fails, with NO_ANSWER when nothing came. -/
theorem outcome_failed {s : State} {p : PortId} {call : Call} {a b : WireAnswer}
    (none : ∀ w z, ¬GoodCopy (s.chain p) call a b w z) :
    outcome s p call a b =
      .failed (if copyOn (s.chain p) a b .retA = .silent ∧ copyOn (s.chain p) a b .retB = .silent then .noAnswer
        else .badCheck) := by
  have silence : (copyOn (s.chain p) a b .retA = .silent ∧ copyOn (s.chain p) a b .retB = .silent) ↔
      (hear (s.chain p) call a b).on (s.chain p).selected = .silent ∧
        (hear (s.chain p) call a b).on (otherWire (s.chain p).selected) = .silent := by
    rw [← hear_silent _ call, ← hear_silent _ call]
    cases (s.chain p).selected
    · exact Iff.rfl
    · exact and_comm
  rw [if_congr silence rfl rfl]
  unfold outcome resultOf
  cases onSelected : (hear (s.chain p) call a b).on (s.chain p).selected with
  | good z => exact absurd ((hear_good ..).1 onSelected) (none _ z)
  | silent =>
    cases onOther : (hear (s.chain p) call a b).on (otherWire (s.chain p).selected) with
    | good z => exact absurd ((hear_good ..).1 onOther) (none _ z)
    | silent => simp
    | bad => simp
  | bad =>
    cases onOther : (hear (s.chain p) call a b).on (otherWire (s.chain p).selected) with
    | good z => exact absurd ((hear_good ..).1 onOther) (none _ z)
    | silent => simp
    | bad => simp

theorem copyOn_silent (c : Chain) (w : Wire) : copyOn c .silent .silent w = .silent := by
  cases w
  · exact ite_self _
  · exact ite_self _

/-- R72: with nothing heard the transaction fails with NO_ANSWER. -/
theorem outcome_silent (s : State) (p : PortId) (call : Call) :
    outcome s p call .silent .silent = .failed .noAnswer := by
  rw [outcome_failed fun w z good => by
    rw [GoodCopy, copyOn_silent] at good
    cases good.1]
  rw [if_pos ⟨copyOn_silent .., copyOn_silent ..⟩]

/-! ### When a transaction ends (R72) -/

/-- R72: the answers on the wires are not for a RESET_ALL or a SYNC, nor for a wire with no call. -/
theorem answersHeard_unanswered {s : State} {p : PortId}
    (call : (s.chain p).inFlight = none ∨ (s.chain p).inFlight = some .resetAll ∨
      ∃ stamp, (s.chain p).inFlight = some (.sync stamp)) (expired : Bool) (a b : WireAnswer) :
    answersHeard p expired a b s = s := by
  unfold answersHeard
  rcases call with call | call | ⟨stamp, call⟩ <;> simp [call]

/-- R72: another call's transaction ends when its time is up or the wires decide it. -/
theorem answersHeard_call {s : State} {p : PortId} {call : Call} (h : (s.chain p).inFlight = some call)
    (reset : call ≠ .resetAll) (sync : ∀ stamp, call ≠ .sync stamp) (expired : Bool) (a b : WireAnswer) :
    answersHeard p expired a b s =
      if expired || decisive (s.chain p) call (hear (s.chain p) call a b) then
        handOutFrom p (takeOutcome p call (hear (s.chain p) call a b) s)
      else s := by
  unfold answersHeard
  dsimp only
  rw [h]
  cases call with
  | resetAll => exact absurd rfl reset
  | sync stamp => exact absurd rfl (sync stamp)
  | train => rfl
  | rollcall k => rfl
  | setPage k page bytes => rfl
  | getPage k page => rfl
  | poll k => rfl

theorem transactionEnd_ends {s : State} {p : PortId} {call : Call} {a b : WireAnswer}
    (h : (s.chain p).inFlight = some call) (reset : call ≠ .resetAll) (sync : ∀ stamp, call ≠ .sync stamp)
    (ends : (∀ w, (s.chain p).failedWire w = true ∨ copyOn (s.chain p) a b w ≠ .silent) ∨
      (call ≠ .train ∧ ∃ y, GoodCopy (s.chain p) call a b (s.chain p).selected y)) :
    exec (.transactionEnd p a b) s = exec (.answerTimeout p a b) s := by
  refine next_congr ?_
  rw [answersHeard_call h reset sync, answersHeard_call h reset sync, (decisive_iff ..).2 ends]
  rfl

theorem transactionEnd_waits {s : State} {p : PortId} {call : Call} {a b : WireAnswer}
    (h : (s.chain p).inFlight = some call) (reset : call ≠ .resetAll) (sync : ∀ stamp, call ≠ .sync stamp)
    (waits : ¬((∀ w, (s.chain p).failedWire w = true ∨ copyOn (s.chain p) a b w ≠ .silent) ∨
      (call ≠ .train ∧ ∃ y, GoodCopy (s.chain p) call a b (s.chain p).selected y))) :
    exec (.transactionEnd p a b) s = .next s := by
  refine next_congr ?_
  rw [answersHeard_call h reset sync, if_neg]
  simpa using mt (decisive_iff ..).1 waits

theorem steady_answerTimeout {s t : State} {p : PortId} {a b : WireAnswer}
    (run : exec (.answerTimeout p a b) s = .next t) : Steady s t := by
  have same : answersHeard p true a b s = t := Host.Outcome.next.inj run
  exact same ▸ steady_answersHeard p true a b s

/-! ### TRAIN attempts and probes (R76, R81) -/

/-- R71, R76: a wire carries the training pattern when it is usable and the copy on it is good. -/
theorem heardOn_train (count : Nat) (failed : Bool) (x : WireAnswer) :
    (heardOn .train count failed x).isGood = (!failed && decide (x = .complete true .training)) := by
  cases failed with
  | true => rfl
  | false =>
    cases x with
    | silent => rfl
    | complete ok y => cases ok <;> cases y <;> rfl

/-- R76, R81: ANSWER_TIMEOUT of a TRAIN call: a probe in EMPTY, an attempt otherwise. -/
theorem answerTimeout_train {s : State} {p : PortId} (call : (s.chain p).inFlight = some .train) (a b : WireAnswer) :
    exec (.answerTimeout p a b) s =
      .next (handOutFrom p
        (let idle := s.setChain p { s.chain p with inFlight := none }
         if (s.chain p).state = .empty then probeOutcome p (hear (s.chain p) .train a b) idle
         else trainOutcome p (hear (s.chain p) .train a b) idle)) := by
  refine next_congr ?_
  rw [answersHeard_call call (by decide) (by simp), Bool.true_or, if_pos rfl]
  rfl

/-- R81: the chain in EMPTY, with its first probe ahead. -/
theorem chain_enterEmpty (p : PortId) (cause : ChainCause) (s : State) :
    (enterEmpty p cause s).chain p =
      { Chain.halted none (s.chain p) with state := .empty, probeLeft := some 200 } := by
  rw [enterEmpty, chain_changeChain, State.chain_modChain_self]

/-- R76, R77: the chain in ROLLCALL, after an attempt that brought the pattern. -/
theorem chain_trainOutcome_good {p : PortId} {e : Ears} (good : (e.retA.isGood || e.retB.isGood) = true) (s : State) :
    (trainOutcome p e s).chain p =
      { Chain.trained e (s.chain p) with
        state := .rollcall, inFlight := some (.rollcall 0), callTries := 0 } := by
  unfold trainOutcome
  rw [if_pos good, sendRollcall, State.chain_modChain_self, chain_changeChain, State.chain_modChain_self]

/-- R77: the chain in EMPTY after a rollcall that found no module, but for its queues. -/
theorem chain_endRollcallEmpty (p : PortId) (s : State) :
    QueuesOnly { Chain.halted none (s.chain p) with modules := [], state := .empty, probeLeft := some 200 }
      ((endRollcallEmpty p s).chain p) := by
  have queues := (calm_moduleReport p (heldPositions (s.chain p))
    (enterEmpty p .noModule (s.modChain p fun c => { c with modules := [] }))).chains p
  rw [chain_enterEmpty, State.chain_modChain_self] at queues
  exact queues

/-! ### Polls (R86, R100, R102) -/

theorem swapWire_eq (p : PortId) (s : State) :
    swapWire p s =
      if (s.chain p).state = .active then changeChain p .degraded .wireFailed (s.setChain p (s.chain p).swapped)
      else s.setChain p (s.chain p).swapped := by
  have state : (s.chain p).swapped.state = (s.chain p).state := by
    unfold Chain.swapped
    split <;> rfl
  unfold swapWire
  rw [State.modChain_eq]
  dsimp only
  rw [State.chain_setChain_self, state]

/-- R100, R104: a failed try charged to a module, with what follows from it. -/
theorem chargeFailure_eq {s : State} {p : PortId} {k : ModulePos} {r : ModuleRecord} (held : s.module p k = some r)
    (o : TransactionOutcome) (endTry : State → State) :
    let r1 := chargedRecord (s.chain p).threshold o r
    let gone := r1.state = .absent ∧ r.state ≠ .absent
    let charged := s.setModule p k r1
    let told := chargeNotice p k r r1 (endTry (if r.state = .ready ∧ gone then staleServed p k charged else charged))
    chargeFailure p k o endTry s = afterAbsence p (decide gone) told.2 told.1 := by
  intro r1 gone charged told
  have flag : (decide (r1.state = .absent) && decide (r.state ≠ .absent)) = decide gone := by
    simp [gone]
  unfold chargeFailure
  rw [held]
  dsimp only
  rw [flag]
  simp only [decide_eq_true_eq]
  rfl

/-- R100: the record of a module after a failed try is the one charged. -/
theorem module_chargeFailure {s : State} {p : PortId} {k : ModulePos} {r : ModuleRecord}
    (held : s.module p k = some r) (o : TransactionOutcome) :
    (chargeFailure p k o id s).module p k = some (chargedRecord (s.chain p).threshold o r) := by
  rw [chargeFailure_eq held]
  generalize chargedRecord (s.chain p).threshold o r = r1
  refine module_afterAbsence ?_ (fun gone => (of_decide_eq_true gone).1) _
  refine (module_of_calm (quiet_chargeNotice p k r r1 _).toCalm p k).trans ?_
  have charged := State.module_setModule held r1
  unfold id
  split
  · exact (module_of_calm (calm_staleServed p k _) p k).trans charged
  · exact charged

theorem module_idled (s : State) (p : PortId) (k : ModulePos) :
    (s.setChain p { s.chain p with inFlight := none }).module p k = s.module p k := by
  rw [State.module_eq, State.chain_setChain_self, State.module_eq]

/-- R86, R100: ANSWER_TIMEOUT of a POLL that has failed. -/
theorem answerTimeout_poll_charges {s : State} {p : PortId} {k : ModulePos} {a b : WireAnswer}
    {o : TransactionOutcome} (call : (s.chain p).inFlight = some (.poll k))
    (failed : outcome s p (.poll k) a b = .failed o) :
    exec (.answerTimeout p a b) s =
      .next (handOutFrom p (chargeFailure p k o id (s.setChain p { s.chain p with inFlight := none }))) := by
  rw [answerTimeout_outcome a b call (by simp) (by simp) (by simp), failed]
  rfl

/-- R86, R100, R104: the charge of a failed POLL, with the notice and what an absence brings. -/
theorem answerTimeout_poll_failed {s : State} {p : PortId} {k : ModulePos} {a b : WireAnswer} {r : ModuleRecord}
    {o : TransactionOutcome} (call : (s.chain p).inFlight = some (.poll k))
    (failed : outcome s p (.poll k) a b = .failed o) (held : s.module p k = some r) :
    let r1 := chargedRecord (s.chain p).threshold o r
    let gone := r1.state = .absent ∧ r.state ≠ .absent
    let charged := (s.setChain p { s.chain p with inFlight := none }).setModule p k r1
    let told := chargeNotice p k r r1 (if r.state = .ready ∧ gone then staleServed p k charged else charged)
    exec (.answerTimeout p a b) s = .next (handOutFrom p (afterAbsence p (decide gone) told.2 told.1)) := by
  have charge := chargeFailure_eq ((module_idled s p k).trans held) o id
  rw [State.chain_setChain_self] at charge
  exact (answerTimeout_poll_charges call failed).trans
    (congrArg (fun t => Host.Outcome.next (handOutFrom p t)) charge)

/-- R86, R100: the record of a module after a failed POLL is the one charged. -/
theorem poll_failed_record {s : State} {p : PortId} {k : ModulePos} {a b : WireAnswer} {r : ModuleRecord}
    {o : TransactionOutcome} (call : (s.chain p).inFlight = some (.poll k))
    (failed : outcome s p (.poll k) a b = .failed o) (held : s.module p k = some r) :
    ∃ t r', exec (.answerTimeout p a b) s = .next t ∧ Steady s t ∧ t.module p k = some r' ∧
      storedModule r' = storedModule (chargedRecord (s.chain p).threshold o r) := by
  have run := answerTimeout_poll_charges call failed
  have charged := module_chargeFailure ((module_idled s p k).trans held) o
  rw [State.chain_setChain_self] at charged
  obtain ⟨r', found, same⟩ := module_handOutFrom charged p
  exact ⟨_, r', run, steady_answerTimeout run, found, same⟩

/-- R100: what a failure charges to a module with misses left. -/
theorem chargedRecord_stays {r : ModuleRecord} (there : r.state ≠ .absent) {threshold : Nat} {o : TransactionOutcome}
    (few : (chargeModule threshold o r).misses < 4) : chargedRecord threshold o r = chargeModule threshold o r := by
  unfold chargedRecord
  rw [if_neg there]
  exact if_neg (by omega)

/-- R100: the fourth miss makes the module ABSENT. -/
theorem chargedRecord_gone {r : ModuleRecord} (there : r.state ≠ .absent) {threshold : Nat} {o : TransactionOutcome}
    (many : 4 ≤ (chargeModule threshold o r).misses) :
    chargedRecord threshold o r = absentRecord (chargeModule threshold o r) := by
  unfold chargedRecord
  rw [if_neg there]
  exact if_pos many

end Sys2Proof.Machine

namespace Sys2Proof.Machine

open Sys2Proof.Safety

/-! ### ANSWER_TIMEOUT (R72, R76 to R78, R81, R86, R100) -/

/-- R76: an attempt without the pattern on a usable wire. -/
theorem trainOutcome_bad {p : PortId} {e : Ears} (bad : (e.retA.isGood || e.retB.isGood) = false) (s : State) :
    trainOutcome p e s = if 8 ≤ (s.chain p).trainTries then enterEmpty p .noPattern s else s := by
  unfold trainOutcome
  rw [bad]
  rfl

theorem hear_train_silent (c : Chain) :
    ((hear c .train .silent .silent).retA.isGood || (hear c .train .silent .silent).retB.isGood) = false := by
  unfold hear
  simp [heardOn_train]

/-- R81: a probe that brings the pattern on a usable wire. -/
theorem probe_good_iff (c : Chain) (a b : WireAnswer) :
    ((hear c .train a b).retA.isGood || (hear c .train a b).retB.isGood) = true ↔
      (c.failedA = false ∧ a = .complete true .training) ∨ (c.failedB = false ∧ b = .complete true .training) := by
  unfold hear
  simp [heardOn_train]

/-- R77: ANSWER_TIMEOUT of a ROLLCALL(1) that no module has answered. -/
theorem answerTimeout_rollcall_silent {s : State} {p : PortId} (call : (s.chain p).inFlight = some (.rollcall 0)) :
    exec (.answerTimeout p .silent .silent) s =
      .next (handOutFrom p (endRollcallEmpty p (afterResult p (.failed .noAnswer) s))) := by
  rw [answerTimeout_outcome .silent .silent call (by simp) (by simp) (by simp), outcome_silent]
  rfl

/-- Settles O39: ANSWER_TIMEOUT by the call in flight; the record of a failed POLL is the one charged. -/
theorem answerTimeoutTakesFailures : Obligations.AnswerTimeoutTakesFailures := by
  unfold Obligations.AnswerTimeoutTakesFailures
  refine ⟨fun s p => ⟨fun call train tries => ?_, fun call train tries => ?_, fun call rollcall => ?_,
      fun k r call held there few => ?_⟩, fun s p k a b r call held none copy there few => ?_,
    fun s p k a b r o => answerTimeout_poll_failed, fun s p a b => ?_⟩
  · have run := answerTimeout_train call .silent .silent
    dsimp only at run
    rw [if_neg (by rw [train]; decide), trainOutcome_bad (hear_train_silent _), State.chain_setChain_self,
      if_pos tries] at run
    have queues := handOutFrom_dead (p := p) (chain_enterEmpty p .noPattern
      (s.setChain p { s.chain p with inFlight := none })) rfl
    refine ⟨_, run, steady_answerTimeout run, ?_⟩
    rw [queues, State.chain_setChain_self]
    exact ⟨rfl, rfl, rfl, rfl⟩
  · have run := answerTimeout_train call .silent .silent
    dsimp only at run
    rw [if_neg (by rw [train]; decide), trainOutcome_bad (hear_train_silent _), State.chain_setChain_self,
      if_neg (Nat.not_le.2 tries)] at run
    exact ⟨_, run, steady_answerTimeout run,
      handOutFrom_dead (State.chain_setChain_self ..) (by simp [Chain.live, train])⟩
  · have run := answerTimeout_rollcall_silent call
    have empty := chain_endRollcallEmpty p (afterResult p (.failed .noAnswer) s)
    have queues := empty.trans (handOutFrom_dead (p := p) rfl (by rw [empty]; rfl))
    refine ⟨_, run, steady_answerTimeout run, ?_⟩
    rw [queues]
    exact ⟨rfl, rfl, rfl⟩
  · obtain ⟨t, r', run, steady, found, same⟩ := poll_failed_record call (outcome_silent s p _) held
    have misses : (chargeModule (s.chain p).threshold .noAnswer r).misses = r.misses + 1 :=
      Nat.min_eq_right (by omega)
    obtain ⟨state, -, bucket', misses', -⟩ := storedModule_fields same
    refine ⟨t, r', run, steady, found, ?_⟩
    rcases Nat.lt_or_eq_of_le few with few | last
    · rw [chargedRecord_stays there (by omega)] at state bucket' misses'
      exact ⟨bucket', misses'.trans misses, fun _ => state, fun last => absurd last (by omega)⟩
    · rw [chargedRecord_gone there (by omega)] at state bucket' misses'
      exact ⟨bucket', misses'.trans misses, fun few => absurd few (by omega), fun _ => state⟩
  · have failed : outcome s p (.poll k) a b = .failed .badCheck := by
      rw [outcome_failed none, if_neg (not_and_or.2 copy)]
    obtain ⟨t, r', run, steady, found, same⟩ := poll_failed_record call failed held
    have misses : (chargeModule (s.chain p).threshold .badCheck r).misses < 4 := few
    rw [chargedRecord_stays there misses] at same
    obtain ⟨state, -, bucket, misses, -⟩ := storedModule_fields same
    exact ⟨t, r', run, steady, found, bucket, misses, state⟩
  · intro c good idle call empty
    have run := answerTimeout_train call a b
    dsimp only at run
    rw [if_pos empty] at run
    refine ⟨fun brings => run.trans ?_, fun none => run.trans ?_⟩
    · rw [probeOutcome, if_pos ((probe_good_iff ..).2 brings)]
    · rw [probeOutcome, if_neg (mt (probe_good_iff ..).1 none)]

end Sys2Proof.Machine

namespace Sys2Proof.Machine

open Sys2Proof.Safety

/-! ### TRANSACTION_END (R71 to R73, R76, R77, R86, R102) -/

/-- R100: a success charged clears the misses, so no module becomes ABSENT by it. -/
theorem chargedRecord_success {r : ModuleRecord} (there : r.state ≠ .absent) (threshold : Nat) :
    chargedRecord threshold .success r = chargeModule threshold .success r :=
  chargedRecord_stays there (show 0 < 4 by decide)

/-- R86, R102: the sample of a poll of the round is the module's last, and goes to the channel map. -/
theorem takePollSample_eq {s : State} {p : PortId} {k : ModulePos} {r : ModuleRecord} (held : s.module p k = some r)
    (stamp : Word) (values : List Half) :
    takePollSample p k stamp values s =
      if stamp = (s.chain p).roundStamp then
        channelSample ⟨p, k⟩ { r with last := some ⟨values, stamp⟩ } ⟨values, stamp⟩
          (s.setModule p k { r with last := some ⟨values, stamp⟩ })
      else s := by
  unfold takePollSample storeSample
  rw [held]

theorem module_takePollSample {s : State} {p : PortId} {k : ModulePos} {r : ModuleRecord}
    (held : s.module p k = some r) {stamp : Word} (round : stamp = (s.chain p).roundStamp) (values : List Half) :
    (takePollSample p k stamp values s).module p k = some { r with last := some ⟨values, stamp⟩ } := by
  rw [takePollSample_eq held, if_pos round]
  exact (module_of_calm (calm_channelSample ..) p k).trans (State.module_setModule held _)

/-- R83, R86, R102: a good POLL is charged first and reported; then its sample is taken, or, where it carries BEYOND,
before the restart (log 20). -/
theorem pollAnswer_eq {s : State} {p : PortId} {k : ModulePos} {r : ModuleRecord} (held : s.module p k = some r)
    (stamp : Word) (values : List Half) (beyond : Bool) :
    let r1 := chargedRecord (s.chain p).threshold .success r
    let charged := s.setModule p k r1
    let told := chargeNotice p k r r1 charged
    pollAnswer p k stamp values beyond s =
      if extends? (s.chain p) k beyond then
        restartChain p .extended [] (takePollSample p k stamp values charged)
      else takePollSample p k stamp values (moduleReport p told.2 told.1) := by
  intro r1 charged told
  have same : extends? (charged.chain p) k beyond = extends? (s.chain p) k beyond := by
    simp [extends?, charged]
  unfold pollAnswer
  rw [held]
  dsimp only
  rw [same]

theorem extends?_iff (c : Chain) (k : ModulePos) (beyond : Bool) :
    extends? c k beyond = true ↔ beyond = true ∧ c.overlong = false ∧ k.val + 1 = c.modules.length := by
  simp [extends?, and_assoc]

/-- R104: a charged outcome's notice and its report leave the chain but for its queues. -/
theorem queues_told (p : PortId) (k : ModulePos) (r r1 : ModuleRecord) (s : State) :
    QueuesOnly (s.chain p)
      ((moduleReport p (chargeNotice p k r r1 s).2 (chargeNotice p k r r1 s).1).chain p) := by
  have quiet := chain_of_quiet (quiet_chargeNotice p k r r1 s) p
  exact quiet ▸ (calm_moduleReport p _ _).chains p

/-- R83, R86, R102: the record after a good POLL of the round: the one charged, with the sample as its last; a restart
makes the module ABSENT. -/
theorem module_pollAnswer {s : State} {p : PortId} {k : ModulePos} {r : ModuleRecord} (held : s.module p k = some r)
    {stamp : Word} (round : stamp = (s.chain p).roundStamp) (values : List Half) (beyond : Bool) :
    let y := { chargedRecord (s.chain p).threshold .success r with last := some ⟨values, stamp⟩ }
    (pollAnswer p k stamp values beyond s).module p k =
      some (if extends? (s.chain p) k beyond then absentOnce y else y) := by
  intro y
  rw [pollAnswer_eq held]
  have charged := State.module_setModule held (chargedRecord (s.chain p).threshold .success r)
  split
  · rw [module_restartChain, module_takePollSample charged (by rw [State.chain_setModule]; exact round)]
    rfl
  · have queues := queues_told p k r (chargedRecord (s.chain p).threshold .success r)
      (s.setModule p k (chargedRecord (s.chain p).threshold .success r))
    refine module_takePollSample ((module_of_queues queues k).trans charged) ?_ values
    rw [queues, State.chain_setModule]
    exact round

theorem absentOnce_fields (r : ModuleRecord) :
    (absentOnce r).bucket = r.bucket ∧ (absentOnce r).misses = r.misses ∧ (absentOnce r).last = r.last := by
  unfold absentOnce
  split <;> exact ⟨rfl, rfl, rfl⟩

/-- R72, R73: an outcome is taken with the records, the round and the settings as they were. -/
theorem afterResult_keeps (p : PortId) (x : Result) (s : State) :
    let c := (afterResult p x s).chain p
    c.modules = (s.chain p).modules ∧ c.threshold = (s.chain p).threshold ∧ c.roundStamp = (s.chain p).roundStamp ∧
      c.overlong = (s.chain p).overlong := by
  obtain ⟨failedA, failedB, selected, st, e⟩ := chain_afterResult p x s
  rw [e]
  exact ⟨rfl, rfl, rfl, rfl⟩

/-- R86: ANSWER_TIMEOUT of a POLL with a good answer. -/
theorem answerTimeout_poll_answered {s : State} {p : PortId} {k : ModulePos} {a b : WireAnswer} {pos : Nat}
    {stamp : Word} {values : List Half} {beyond swap : Bool} (call : (s.chain p).inFlight = some (.poll k))
    (good : outcome s p (.poll k) a b = .answered (.sample pos stamp values beyond) swap) :
    exec (.answerTimeout p a b) s = .next (handOutFrom p
      (pollAnswer p k stamp values beyond (afterResult p (outcome s p (.poll k) a b) s))) := by
  rw [answerTimeout_outcome a b call (by simp) (by simp) (by simp), good]
  rfl

theorem otherWire_eq (w : Wire) : otherWire w = if w = .retA then .retB else .retA := by cases w <;> rfl

theorem GoodCopy.sample {c : Chain} {a b : WireAnswer} {w : Wire} {k : ModulePos} {r : ModuleRecord} {stamp : Word}
    {values : List Half} {beyond : Bool} (held : c.modules[k.val]? = some r) (count : values.length = r.valueCount)
    (copy : copyOn c a b w = .complete true (.sample (k.val + 1) stamp values beyond)) :
    GoodCopy c (.poll k) a b w (.sample (k.val + 1) stamp values beyond) :=
  ⟨copy, rfl, by rw [held]; exact count⟩

/-- R71, R73: an answer given on the selected wire alone, while that wire is usable. -/
theorem copyOn_selected {c : Chain} (usable : c.failedWire c.selected = false) (x : WireAnswer) :
    copyOn c (if c.selected = .retA then x else .silent) (if c.selected = .retB then x else .silent) c.selected =
      x := by
  cases wire : c.selected with
  | retA =>
    rw [wire] at usable
    simp [copyOn, show c.failedA = false from usable]
  | retB =>
    rw [wire] at usable
    simp [copyOn, show c.failedB = false from usable]

/-- R76, R77: the end of a TRAIN attempt that brought the pattern. -/
theorem answerTimeout_trained {s : State} {p : PortId} {a b : WireAnswer} (train : (s.chain p).state = .train)
    (call : (s.chain p).inFlight = some .train)
    (good : ((hear (s.chain p) .train a b).retA.isGood || (hear (s.chain p) .train a b).retB.isGood) = true) :
    ∃ t, exec (.answerTimeout p a b) s = .next t ∧ Steady s t ∧
      QueuesOnly
        { Chain.trained (hear (s.chain p) .train a b) (s.chain p) with
          state := .rollcall, inFlight := some (.rollcall 0), callTries := 0 } (t.chain p) := by
  have run := answerTimeout_train call a b
  dsimp only at run
  rw [if_neg (by rw [train]; decide)] at run
  refine ⟨_, run, steady_answerTimeout run, ?_⟩
  have trained := chain_trainOutcome_good (p := p) good (s.setChain p { s.chain p with inFlight := none })
  rw [State.chain_setChain_self] at trained
  exact handOutFrom_busy trained (Option.some_ne_none _)

/-- R83, R86, R102: the outcome of a good POLL, against the chain as it stood when the answer came. -/
theorem answerTimeout_good_poll {s : State} {p : PortId} {k : ModulePos} {a b : WireAnswer} {pos : Nat} {stamp : Word}
    {values : List Half} {beyond swap : Bool} {r : ModuleRecord} (call : (s.chain p).inFlight = some (.poll k))
    (good : outcome s p (.poll k) a b = .answered (.sample pos stamp values beyond) swap)
    (held : s.module p k = some r) :
    let c := s.chain p
    let r1 := chargedRecord c.threshold .success r
    let charged := (afterResult p (outcome s p (.poll k) a b) s).setModule p k r1
    let told := chargeNotice p k r r1 charged
    let sampled := fun (u : State) =>
      if stamp = c.roundStamp then
        let y := { r1 with last := some ⟨values, stamp⟩ }
        channelSample ⟨p, k⟩ y ⟨values, stamp⟩ (u.setModule p k y)
      else u
    exec (.answerTimeout p a b) s = .next (handOutFrom p
      (if beyond = true ∧ c.overlong = false ∧ k.val + 1 = c.modules.length then
         restartChain p .extended [] (sampled charged)
       else sampled (moduleReport p told.2 told.1))) := by
  intro c r1 charged told sampled
  obtain ⟨modules, threshold, round, overlong⟩ := afterResult_keeps p (outcome s p (.poll k) a b) s
  have there : (afterResult p (outcome s p (.poll k) a b) s).module p k = some r := by
    rw [State.module_eq, modules]
    exact held
  have record : charged.module p k = some r1 := State.module_setModule there r1
  have stamps : (charged.chain p).roundStamp = c.roundStamp := by
    rw [State.chain_setModule]
    exact round
  have takes {u : State} (queues : QueuesOnly (charged.chain p) (u.chain p)) :
      takePollSample p k stamp values u = sampled u := by
    rw [takePollSample_eq ((module_of_queues queues k).trans record), queues]
    exact if_congr (by rw [← stamps]) rfl rfl
  rw [answerTimeout_poll_answered call good, pollAnswer_eq there, threshold]
  have extended : extends? ((afterResult p (outcome s p (.poll k) a b) s).chain p) k beyond = true ↔
      beyond = true ∧ c.overlong = false ∧ k.val + 1 = c.modules.length := by
    rw [extends?_iff, modules, overlong]
  refine congrArg (fun t => Host.Outcome.next (handOutFrom p t)) ?_
  rw [← takes (QueuesOnly.refl _), ← takes (queues_told p k r r1 charged)]
  exact if_congr extended rfl rfl

/-- R86, R100, R102: the record of a module after a good POLL of its round, given on the selected wire. -/
theorem good_poll_record {s : State} {p : PortId} {k : ModulePos} {r : ModuleRecord} {values : List Half}
    {beyond : Bool} (call : (s.chain p).inFlight = some (.poll k)) (held : s.module p k = some r)
    (there : r.state ≠ .absent) (count : values.length = r.valueCount)
    (usable : (s.chain p).failedWire (s.chain p).selected = false) :
    let answer : WireAnswer := .complete true (.sample (k.val + 1) (s.chain p).roundStamp values beyond)
    ∃ t r', exec (.transactionEnd p (if (s.chain p).selected = .retA then answer else .silent)
        (if (s.chain p).selected = .retB then answer else .silent)) s = .next t ∧ Steady s t ∧
      t.module p k = some r' ∧ r'.misses = 0 ∧ r'.bucket = r.bucket - 1 ∧
      r'.last = some ⟨values, (s.chain p).roundStamp⟩ ∧ (beyond = false → r'.state = r.state) := by
  intro answer
  have good := GoodCopy.sample held count (copyOn_selected usable answer)
  have run := answerTimeout_poll_answered call (outcome_selected good)
  rw [outcome_selected good] at run
  have taken := module_pollAnswer ((module_idled s p k).trans held)
    (stamp := (s.chain p).roundStamp) (by rw [State.chain_setChain_self]) values beyond
  dsimp only at taken
  rw [State.chain_setChain_self, chargedRecord_success there] at taken
  obtain ⟨r', found, same⟩ := module_handOutFrom taken p
  obtain ⟨state, -, bucket, misses, last⟩ := storedModule_fields same
  refine ⟨_, r', (transactionEnd_ends call (by simp) (by simp) (.inr ⟨by simp, _, good⟩)).trans run,
    steady_answerTimeout run, found, ?_⟩
  cases restarts : extends? { s.chain p with inFlight := none } k beyond with
  | false =>
    rw [restarts] at state bucket misses last
    exact ⟨misses, bucket, last, fun _ => state⟩
  | true =>
    rw [restarts] at bucket misses last
    obtain ⟨sameBucket, sameMisses, sameLast⟩ := absentOnce_fields
      { chargeModule (s.chain p).threshold .success r with last := some ⟨values, (s.chain p).roundStamp⟩ }
    exact ⟨misses.trans sameMisses, bucket.trans sameBucket, last.trans sameLast,
      fun plain => absurd ((extends?_iff ..).1 restarts).1 (by rw [plain]; decide)⟩

/-- Settles O38: the result of a transaction by the copies on its wires, TRANSACTION_END by whether they decide it, and
the good outcomes of a TRAIN attempt and of a POLL. -/
theorem transactionEndTakesAnswers : Obligations.TransactionEndTakesAnswers := by
  unfold Obligations.TransactionEndTakesAnswers
  refine ⟨fun s p a b => ?_, fun s p k r values beyond call held there count usable => ?_,
    fun s p call a b => ⟨fun y => outcome_selected, fun y none good => ?_, outcome_failed,
      fun none => ⟨next_congr (answersHeard_unanswered none ..), next_congr (answersHeard_unanswered none ..)⟩,
      fun flies reset sync => ⟨transactionEnd_ends flies reset sync, transactionEnd_waits flies reset sync⟩⟩,
    fun s p => swapWire_eq p s, fun s p k a b pos stamp values beyond swap r call good held => ?_⟩
  · intro c goodA goodB
    have onA : (hear c .train a b).retA.isGood = goodA := heardOn_train ..
    have onB : (hear c .train a b).retB.isGood = goodB := heardOn_train ..
    refine ⟨fun call usable => transactionEnd_waits call (by decide) (by simp) ?_,
      fun train call good copyA copyB => ?_⟩
    · rintro (all | ⟨other, -⟩)
      · rcases usable with usable | usable
        · exact (all .retA).elim (fun failed => Bool.false_ne_true (usable.symm.trans failed))
            (· (copyOn_silent ..))
        · exact (all .retB).elim (fun failed => Bool.false_ne_true (usable.symm.trans failed))
            (· (copyOn_silent ..))
      · exact other rfl
    · have ends : ∀ w, c.failedWire w = true ∨ copyOn c a b w ≠ .silent := by
        intro w
        cases w
        · cases failed : c.failedA
          · exact .inr (by simpa [copyOn, failed] using copyA.resolve_left (by simp [c, failed]))
          · exact .inl failed
        · cases failed : c.failedB
          · exact .inr (by simpa [copyOn, failed] using copyB.resolve_left (by simp [c, failed]))
          · exact .inl failed
      rw [transactionEnd_ends call (by decide) (by simp) (.inl ends)]
      obtain ⟨t, run, steady, queues⟩ := answerTimeout_trained train call (by rw [onA, onB]; exact good)
      refine ⟨t, run, steady, ?_⟩
      rw [Chain.trained, onA, onB] at queues
      exact queues
  · exact good_poll_record call held there count usable
  · refine outcome_other none ?_
    rwa [otherWire_eq]
  · exact answerTimeout_good_poll call good held

end Sys2Proof.Machine

namespace Sys2Proof.Machine

open Sys2Proof.Safety

/-! ### The end of a rollcall (R77, R78, R82) -/

/-- R82: the entry to FAULT. -/
theorem enterFault_eq (p : PortId) (cause : ChainCause) (s : State) :
    enterFault p cause s = changeChain p .fault cause (s.setChain p
      { Chain.halted none (s.chain p) with
        faultCount := min 4 ((s.chain p).faultCount + 1)
        retryLeft := if (s.chain p).faultCount < 3 then some 500 else none }) := by
  have left : min 4 ((s.chain p).faultCount + 1) ≤ 3 ↔ (s.chain p).faultCount < 3 := by omega
  simp only [enterFault, State.modChain_eq s, Chain.faulted, left]

/-- R77, R81, R104: a rollcall that found no module ends in EMPTY, with a report of the records removed. -/
theorem endRollcallEmpty_eq (p : PortId) (s : State) :
    endRollcallEmpty p s =
      moduleReport p (heldPositions (s.chain p)) (changeChain p .empty .noModule (s.setChain p
        { Chain.halted none (s.chain p) with modules := [], probeLeft := some 200 })) := by
  simp only [endRollcallEmpty, enterEmpty, State.modChain_eq s, State.modChain_setChain]
  rfl

/-- R77, R78, R104: the end of a rollcall that found the modules `found`, from the state before its last answer. -/
def rollcallEnded (p : PortId) (found : List Identity) (overlong : Bool) (s : State) : State :=
  let c := s.chain p
  let records := found.mapIdx fun i y => settledRecord c.modules[i]? y
  let v := (allPositions.filter fun k => k.val < records.length).foldl
    (fun u k => moduleNotice p k .absent .rollcall u)
    (s.setChain p
      { c with
        modules := records, found := [], callTries := 0, configTodo := configList records, overlong := overlong })
  let t := changeChain p .config .step v
  moduleReport p (allPositions.filter fun k => k.val < c.modules.length || k.val < records.length)
    (t.setChain p { t.chain p with inFlight := configHead (t.chain p) })

theorem endRollcall_eq (p : PortId) (found : List Identity) (overlong : Bool) (s : State) :
    endRollcall p (s.setChain p { s.chain p with found := found, overlong := overlong }) =
      rollcallEnded p found overlong s := by
  unfold endRollcall rollcallEnded rollcallNotices rollcallChanged heldPositions
  simp only [State.modChain_setChain, State.chain_setChain_self, Chain.settled, settledRecords_eq]
  rfl

/-- R77: a rollcall that no further module answers ends with what it has found. -/
theorem endRollcall_missing (p : PortId) (s : State) :
    endRollcall p s = rollcallEnded p (s.chain p).found (s.chain p).overlong s := by
  rw [← endRollcall_eq]
  exact congrArg (endRollcall p) (State.setChain_chain s p).symm

theorem rollcallAnswer_next {k j : ModulePos} (next : j.val = k.val + 1) (p : PortId) (y : Identity) (s : State) :
    rollcallAnswer p k y false s = s.setChain p
      { s.chain p with
        found := (s.chain p).found ++ [y], inFlight := some (.rollcall j), callTries := 0 } := by
  have inside : k ≠ 3 := by
    rintro rfl
    exact absurd j.isLt (by rw [next]; decide)
  have successor : k + 1 = j := by
    apply Fin.ext
    rw [Fin.val_add, next]
    exact Nat.mod_eq_of_lt (by omega)
  simp [rollcallAnswer, inside, successor, sendRollcall, State.modChain_eq s]

theorem rollcallAnswer_ends {k : ModulePos} {last : Bool} (ends : last = true ∨ k = 3) (p : PortId) (y : Identity)
    (s : State) :
    rollcallAnswer p k y last s =
      rollcallEnded p ((s.chain p).found ++ [y]) ((s.chain p).overlong || (decide (k = 3) && !last)) s := by
  unfold rollcallAnswer
  rw [if_pos ends, ← endRollcall_eq, State.modChain_eq]

theorem rollcallOutcome_bad (p : PortId) (k : ModulePos) (s : State) :
    rollcallOutcome p k (.failed .badCheck) s =
      if (s.chain p).callTries < 2 then
        s.setChain p { s.chain p with inFlight := some (.rollcall k), callTries := (s.chain p).callTries + 1 }
      else enterFault p .rollcallFailed s := by
  unfold rollcallOutcome
  dsimp only
  rw [← ite_not]
  exact if_congr (by omega) rfl rfl

/-! ### CONFIG (R79, R80) -/

/-- R79: the next page transaction of CONFIG, or its end. -/
theorem configNext_eq (p : PortId) (s : State) :
    let d := { s.chain p with configTodo := (s.chain p).configTodo.tail, callTries := 0 }
    configNext p s =
      match configHead d with
      | some y => s.setChain p { d with inFlight := some y }
      | none => changeChain p (if d.failedA || d.failedB then .degraded else .active) .step
          (s.setChain p d.configured) := by
  intro d
  have chain : (s.setChain p d).chain p = d := State.chain_setChain_self ..
  unfold configNext
  rw [State.modChain_eq s]
  dsimp only
  rw [show (s.setChain p { s.chain p with configTodo := (s.chain p).configTodo.tail, callTries := 0 }) =
    s.setChain p d from rfl, chain]
  cases configHead d with
  | some y => simp [sendCall]
  | none => simp

theorem storePage_eq {s : State} {p : PortId} {k : ModulePos} {r : ModuleRecord} (held : s.module p k = some r)
    (page : Page) (bytes : PageBytes) : storePage p k page bytes s = s.setModule p k (setShadow r page bytes) := by
  unfold storePage
  rw [held]

theorem startWritten_eq {s : State} {p : PortId} {k : ModulePos} {r : ModuleRecord} (held : s.module p k = some r) :
    startWritten p k s = enterSettling p k .start (s.setModule p k { r with countdown := r.divider }) := by
  unfold startWritten
  rw [held]

theorem configOutcome_answered {s : State} {p : PortId} {op : ConfigOp} {rest : List ConfigOp}
    (todo : (s.chain p).configTodo = op :: rest) (call : Call) (y : Answer) (swap : Bool) :
    configOutcome p call (.answered y swap) s = configDone p op y s := by
  unfold configOutcome
  rw [todo]

theorem configOutcome_failed {s : State} {p : PortId} {op : ConfigOp} {rest : List ConfigOp}
    (todo : (s.chain p).configTodo = op :: rest) (call : Call) (o : TransactionOutcome) :
    configOutcome p call (.failed o) s =
      if (s.chain p).callTries < 2 then
        s.setChain p { s.chain p with inFlight := some call, callTries := (s.chain p).callTries + 1 }
      else enterFault p .pageFailed s := by
  unfold configOutcome
  rw [todo]
  dsimp only
  rw [← ite_not]
  exact if_congr (by omega) rfl rfl

/-! ### Page operations (R89, R90, R102) -/

/-- R100: a success charged changes no state. -/
theorem state_chargedSuccess (threshold : Nat) (r : ModuleRecord) :
    (chargedRecord threshold .success r).state = r.state := by
  by_cases absent : r.state = .absent
  · rw [chargedRecord, if_pos absent]
  · rw [chargedRecord_success absent]
    rfl

theorem setShadow_keeps (r : ModuleRecord) (page : Page) (bytes : PageBytes) :
    (setShadow r page bytes).state = r.state ∧ (setShadow r page bytes).failing = r.failing := by
  cases page <;> exact ⟨rfl, rfl⟩

/-- R89, R102: the record that a write leaves, from the one charged. -/
theorem writtenRecord_eq (page : Page) (bytes : PageBytes) (r : ModuleRecord) :
    writtenRecord page bytes r =
      if r.state = .settling then
        { setShadow r page bytes with settleLeft := (setShadow r page bytes).settleTime }
      else setShadow r page bytes := rfl

theorem writtenRecord_keeps (page : Page) (bytes : PageBytes) (r : ModuleRecord) :
    (writtenRecord page bytes r).state = r.state ∧ (writtenRecord page bytes r).failing = r.failing := by
  rw [writtenRecord_eq]
  split <;> exact setShadow_keeps r page bytes

/-- R104: the notice of a charge looks at the state and the FAILING flag alone. -/
theorem chargeNotice_congr {x y : ModuleRecord} (same : y.state = x.state ∧ y.failing = x.failing) (p : PortId)
    (k : ModulePos) (r : ModuleRecord) (s : State) : chargeNotice p k r y s = chargeNotice p k r x s := by
  unfold chargeNotice
  rw [same.1, same.2]

theorem opOutcome_answered {s : State} {p : PortId} {op : PageOp} {rest : List PageOp}
    (queue : (s.chain p).queue = op :: rest) (y : Answer) (swap : Bool) :
    opOutcome p (.answered y swap) s = opSucceeded p op y s := by
  unfold opOutcome
  rw [queue]

theorem opOutcome_failed {s : State} {p : PortId} {op : PageOp} {rest : List PageOp}
    (queue : (s.chain p).queue = op :: rest) (o : TransactionOutcome) :
    opOutcome p (.failed o) s = chargeFailure p op.pos o (opTryFailed p op) s := by
  unfold opOutcome
  rw [queue]

/-- R89, R99, R102: a write done at a READY module takes it to SETTLING. -/
theorem opSucceeded_write_ready {s : State} {p : PortId} {op : PageOp} {bytes : PageBytes} {r : ModuleRecord}
    (held : s.module p op.pos = some r) (write : op.bytes = some bytes) (ready : r.state = .ready) (y : Answer) :
    opSucceeded p op y s =
      moduleReport p [op.pos] (endHead p op .written (enterSettling p op.pos .pageWrite
        (s.setModule p op.pos (setShadow (chargedRecord (s.chain p).threshold .success r) op.page bytes)))) := by
  have state := (state_chargedSuccess (s.chain p).threshold r).trans ready
  unfold opSucceeded
  rw [held, write]
  dsimp only
  rw [writeSucceeded, State.module_setModule held]
  dsimp only
  rw [if_pos state, writtenRecord_eq, if_neg (by rw [state]; decide), State.setModule_setModule]

/-- R89, R102: a write done at another module is charged, and times a SETTLING module again. -/
theorem opSucceeded_write {s : State} {p : PortId} {op : PageOp} {bytes : PageBytes} {r : ModuleRecord}
    (held : s.module p op.pos = some r) (write : op.bytes = some bytes) (other : r.state ≠ .ready) (y : Answer) :
    let r2 := setShadow (chargedRecord (s.chain p).threshold .success r) op.page bytes
    let r3 := if r.state = .settling then { r2 with settleLeft := r2.settleTime } else r2
    let told := chargeNotice p op.pos r r3 (s.setModule p op.pos r3)
    opSucceeded p op y s = moduleReport p told.2 (endHead p op .written told.1) := by
  intro r2 r3 told
  have state := state_chargedSuccess (s.chain p).threshold r
  have written : writtenRecord op.page bytes (chargedRecord (s.chain p).threshold .success r) = r3 := by
    rw [writtenRecord_eq, state]
  unfold opSucceeded
  rw [held, write]
  dsimp only
  rw [writeSucceeded, State.module_setModule held]
  dsimp only
  rw [if_neg (by rwa [state]), written, State.setModule_setModule,
    ← chargeNotice_congr (written ▸ writtenRecord_keeps ..)]

/-- R89, R102: a read done. -/
theorem opSucceeded_read {s : State} {p : PortId} {op : PageOp} {r : ModuleRecord}
    (held : s.module p op.pos = some r) (read : op.bytes = none) (pos n : Nat) (bytes : PageBytes) :
    let r2 := setShadow (chargedRecord (s.chain p).threshold .success r) op.page bytes
    let told := chargeNotice p op.pos r r2 (s.setModule p op.pos r2)
    opSucceeded p op (.pageAnswer pos n bytes) s =
      moduleReport p told.2 (endHead p op (.read op.page bytes) told.1) := by
  intro r2 told
  unfold opSucceeded
  rw [held, read]
  dsimp only
  rw [storePage_eq (State.module_setModule held _), State.setModule_setModule,
    ← chargeNotice_congr (setShadow_keeps ..)]

/-- R89: a failed try of the operation at the head of the queue. -/
theorem opTryFailed_eq {s : State} {p : PortId} {op : PageOp} {rest : List PageOp}
    (queue : (s.chain p).queue = op :: rest) :
    opTryFailed p op s =
      if op.tries < 2 then
        s.setChain p { s.chain p with queue := { op with tries := op.tries + 1 } :: rest }
      else endHead p op .failed s := by
  unfold opTryFailed
  rw [State.modChain_eq, queue, ← ite_not]
  exact if_congr (by omega) rfl rfl

end Sys2Proof.Machine

namespace Sys2Proof.Machine

open Sys2Proof.Safety

/-- R79: a page call of CONFIG or of a page operation: its ANSWER_TIMEOUT takes the outcome of the one or the other. -/
theorem answerTimeout_page {s : State} {p : PortId} {call : Call} (a b : WireAnswer)
    (h : (s.chain p).inFlight = some call)
    (page : (∃ k page bytes, call = .setPage k page bytes) ∨ ∃ k page, call = .getPage k page) :
    exec (.answerTimeout p a b) s = .next (handOutFrom p
      (if (s.chain p).state = .config then
        configOutcome p call (outcome s p call a b) (afterResult p (outcome s p call a b) s)
      else opOutcome p (outcome s p call a b) (afterResult p (outcome s p call a b) s))) := by
  rcases page with ⟨k, page, bytes, rfl⟩ | ⟨k, page, rfl⟩
  · exact answerTimeout_outcome a b h (by simp) (by simp) (by simp)
  · exact answerTimeout_outcome a b h (by simp) (by simp) (by simp)

/-- Settles O28: the outcome of each try by its call, the state it finds the chain in, and its answer. -/
theorem rollcallConfigAndPageOutcomes : Obligations.RollcallConfigAndPageOutcomes := by
  unfold Obligations.RollcallConfigAndPageOutcomes
  intro s p call a b flies x w c ends still faulted firstCall pageCall stored
  refine ⟨fun k rollcall => ?_, fun op rest page config todo => ?_, fun op rest r page other queue held => ?_⟩
  · intro ended
    subst rollcall
    have run {t : State} (taken : rollcallOutcome p k x w = t) : ends t := by
      rw [← taken]
      exact answerTimeout_outcome a b flies (by simp) (by simp) (by simp)
    clear_value w x
    refine ⟨fun pos kind model n settle last swap e => ⟨fun j more next => run ?_, fun lasts => run ?_⟩,
      fun e => ⟨fun first => run ?_, fun later => run ?_⟩, fun e => ⟨fun few => run ?_, fun many => run ?_⟩⟩
    · rw [e, more]
      exact rollcallAnswer_next next p _ w
    · rw [e]
      exact rollcallAnswer_ends lasts p _ w
    · rw [e]
      exact (if_pos first).trans (endRollcallEmpty_eq p w)
    · rw [e]
      exact (if_neg later).trans (endRollcall_missing p w)
    · rw [e, rollcallOutcome_bad]
      exact if_pos few
    · rw [e, rollcallOutcome_bad]
      exact (if_neg (Nat.not_lt.2 many)).trans (enterFault_eq p .rollcallFailed w)
  · intro next
    have run {t : State} (taken : configOutcome p call x w = t) : ends t := by
      rw [← taken]
      exact (answerTimeout_page a b flies page).trans (by rw [if_pos config])
    have nexts (u : State) : configNext p u = next u := configNext_eq p u
    clear_value w x
    refine ⟨fun pos n bytes swap r e held => run ?_,
      fun pos n swap r e held => ⟨fun plain => run ?_, fun start => run ?_⟩,
      fun o e => ⟨fun few => run ?_, fun many => run ?_⟩⟩
    · rw [e, configOutcome_answered todo, ← nexts]
      exact congrArg (configNext p) (storePage_eq held op.page bytes)
    · rw [e, configOutcome_answered todo, ← nexts]
      exact if_neg plain
    · rw [e, configOutcome_answered todo, ← nexts, ← startWritten_eq held]
      exact if_pos start
    · rw [e, configOutcome_failed todo]
      exact if_pos few
    · rw [e, configOutcome_failed todo]
      exact (if_neg (Nat.not_lt.2 many)).trans (enterFault_eq p .pageFailed w)
  · intro leave r1
    have run {t : State} (taken : opOutcome p x w = t) : ends t := by
      rw [← taken]
      exact (answerTimeout_page a b flies page).trans (by rw [if_neg other])
    have leaves (u : State) (e : OpEnd) : endHead p op e u = leave u (opReply e) (e ≠ .failed) := rfl
    clear_value w x
    refine ⟨fun y swap bytes e write => ?_, fun pos n bytes swap e read => ?_, fun o e => ?_⟩
    · intro r2 r3 told
      refine ⟨fun ready => run ?_, fun unready => run ?_⟩
      · rw [e, opOutcome_answered queue, opSucceeded_write_ready held write ready]
        rfl
      · rw [e, opOutcome_answered queue]
        exact opSucceeded_write held write unready y
    · refine run ?_
      rw [e, opOutcome_answered queue]
      exact opSucceeded_read held read pos n bytes
    · intro q1 gone charged v tried told
      refine run ?_
      rw [e, opOutcome_failed queue, chargeFailure_eq held]
      have waits : (v.chain p).queue = op :: rest := by
        have same : (charged.chain p).queue = op :: rest := by
          rw [State.chain_setModule]
          exact queue
        unfold v
        split
        · rw [chain_staleServed]
          exact same
        · exact same
      have ended : opTryFailed p op v = tried := opTryFailed_eq waits
      exact congrArg (fun u => afterAbsence p (decide gone) (chargeNotice p op.pos r q1 u).2
        (chargeNotice p op.pos r q1 u).1) ended

end Sys2Proof.Machine

namespace Sys2Proof.Machine

open Sys2Proof.Safety

/-! ### MAP_SET (R105, R106) -/

@[simp] theorem recordOf_reserved (s : State) (src : Source) (i : Fin 8) (kind tag : Byte) (n : Option ModuleName) :
    recordOf (reserved s src i kind tag) n = recordOf s n := by
  cases n with
  | none => rfl
  | some n => exact reserved_module s src i kind tag n.port n.pos

@[simp] theorem backsAnother_reserved (s : State) (src : Source) (i : Fin 8) (kind tag : Byte) (ch : ChannelId)
    (n : ModuleName) : backsAnother (reserved s src i kind tag) ch n = backsAnother s ch n := by
  simp [backsAnother]

theorem backsAnother_iff (s : State) (ch : ChannelId) (n : ModuleName) :
    backsAnother s ch n = true ↔ ∃ k, k ≠ ch ∧ (s.channel k).state ≠ .unmapped ∧
      ((s.channel k).primary = some n ∨ (s.channel k).spare = some n) := by
  simp [backsAnother, backs, mem_allChannels]

theorem spareName_map (spare : Option ModuleName) :
    spareName (spare.map fun n => (n.port.val, n.pos.val + 1)) = some spare := by
  cases spare with
  | none => rfl
  | some n => simp [spareName, moduleName_in]

theorem spareName_out {port pos : Nat} (out : 4 ≤ port ∨ pos = 0 ∨ 4 < pos) : spareName (some (port, pos)) = none := by
  simp [spareName, moduleName_out out]

/-- R106 step 1: a number out of range. -/
theorem mapSet_out {f : MapFields}
    (out : 16 ≤ f.channel ∨ 4 ≤ f.primaryPort ∨ f.primaryPos = 0 ∨ 4 < f.primaryPos ∨ f.den = 0 ∨
      ∃ port pos, f.spare = some (port, pos) ∧ (4 ≤ port ∨ pos = 0 ∨ 4 < pos)) (s : State) :
    mapSet f s = (s, Reply.refuse .badValue) := by
  unfold mapSet
  split
  · next ch primary spare channel named spared =>
    refine if_pos ?_
    rcases out with out | out | out | out | out | ⟨port, pos, e, out⟩
    · rw [index_of_le out] at channel; cases channel
    · rw [moduleName_out (.inl out)] at named; cases named
    · rw [moduleName_out (.inr (.inl out))] at named; cases named
    · rw [moduleName_out (.inr (.inr out))] at named; cases named
    · exact out
    · rw [e, spareName_out out] at spared; cases spared
  · rfl

/-- R106: the numbers of a MAP_SET name a channel and its modules, and its scale divides. -/
structure MapNames (f : MapFields) (ch : ChannelId) (primary : ModuleName) (spare : Option ModuleName) : Prop where
  channel : f.channel = ch.val
  port : f.primaryPort = primary.port.val
  pos : f.primaryPos = primary.pos.val + 1
  spare : f.spare = spare.map fun n => (n.port.val, n.pos.val + 1)
  den : f.den ≠ 0

section Named

variable {f : MapFields} {ch : ChannelId} {primary : ModuleName} {spare : Option ModuleName}
  (names : MapNames f ch primary spare) {s : State}
include names

/-- R106 step 2. -/
theorem mapSet_busy (busy : (s.channel ch).state = .waiting ∨ (s.channel ch).state = .copying) :
    mapSet f s = (s, Reply.refuse .busy) := by
  unfold mapSet
  rw [names.channel, names.port, names.pos, names.spare, index_val, moduleName_in, spareName_map]
  exact (if_neg names.den).trans (if_pos busy)

/-- R106 steps 3 to 6. -/
theorem mapSet_refused (free : ¬((s.channel ch).state = .waiting ∨ (s.channel ch).state = .copying)) {st : Status}
    (no : mapRefusal s ch primary spare (recordOf s (some primary)) (recordOf s spare) = some st) :
    mapSet f s = (s, Reply.refuse st) := by
  unfold mapSet
  rw [names.channel, names.port, names.pos, names.spare, index_val, moduleName_in, spareName_map]
  refine ((if_neg names.den).trans (if_neg free)).trans ?_
  dsimp only
  rw [no]

/-- R106: a mapping that no check refuses. -/
theorem mapSet_maps (free : ¬((s.channel ch).state = .waiting ∨ (s.channel ch).state = .copying)) {a : ModuleRecord}
    (held : recordOf s (some primary) = some a)
    (yes : mapRefusal s ch primary spare (some a) (recordOf s spare) = none) :
    mapSet f s =
      let c := mappedChannel f primary spare a (recordOf s spare)
      (mapChannel ch c s,
        Reply.ok (outOfRange 1 32767 f.den || outOfRange (-1000000) 1000000 f.offset)
          (.mapped c.state c.serving c.valueCount)) := by
  unfold mapSet
  rw [names.channel, names.port, names.pos, names.spare, index_val, moduleName_in, spareName_map]
  refine ((if_neg names.den).trans (if_neg free)).trans ?_
  dsimp only
  rw [held, yes]

end Named

/-- R106 steps 3 to 5: a named module without a record, a spare equal to the primary or of another kind. -/
theorem mapRefusal_badValue {s : State} {ch : ChannelId} {primary : ModuleName} {spare : Option ModuleName}
    {a b : Option ModuleRecord}
    (bad : a = none ∨ ∃ n, spare = some n ∧
      (b = none ∨ n = primary ∨ b.map ModuleRecord.kind ≠ a.map ModuleRecord.kind)) :
    mapRefusal s ch primary spare a b = some .badValue := by
  unfold mapRefusal
  rcases bad with rfl | ⟨n, rfl, rfl | rfl | other⟩
  · rfl
  · exact if_pos (by simp)
  · split
    · rfl
    · exact if_pos rfl
  · split
    · rfl
    · split
      · rfl
      · exact if_pos (by simpa using other)

/-- R106 step 6: modules that the steps before pass. -/
theorem mapRefusal_passes {s : State} {primary : ModuleName} {spare : Option ModuleName} {a : ModuleRecord}
    (pair : ∀ n, spare = some n → n ≠ primary ∧ ∃ b, recordOf s (some n) = some b ∧ b.kind = a.kind) (ch : ChannelId) :
    mapRefusal s ch primary spare (some a) (recordOf s spare) =
      if backsAnother s ch primary = true ∨ ∃ n, spare = some n ∧ backsAnother s ch n = true then some .inUse
      else none := by
  cases spare with
  | none => simp [mapRefusal]
  | some n =>
    obtain ⟨other, b, held, kind⟩ := pair n rfl
    simp [mapRefusal, held, kind, other]

/-- R105: what is left of usable once the kind and the value count fit. -/
def worksRecord (r : ModuleRecord) : Bool := decide (r.state = .settling ∨ r.state = .ready)

/-- R106: the state that a mapping enters, and its serving slot. -/
def mappedAs (a : ModuleRecord) (b : Option ModuleRecord) : ChannelState × ServingSlot :=
  let serves := fun (r : ModuleRecord) => worksRecord r && !r.failing
  let healthy := fun (r : ModuleRecord) => decide (r.state = .ready) && !r.failing
  match b with
  | none => (if worksRecord a then .single else .lost, .primary)
  | some b =>
    if serves a then (if healthy b then .redundant else .exposed, .primary)
    else if serves b then (if healthy a then .redundant else .exposed, .spare)
    else (.lost, .primary)

/-- R106: the value count of a mapping. -/
def mappedCount (a : ModuleRecord) (b : Option ModuleRecord) : Nat :=
  match b with
  | none => a.valueCount
  | some b => min a.valueCount b.valueCount

section Fits

variable {c : Channel} {r : ModuleRecord} (kind : r.kind = c.kind) (count : c.valueCount ≤ r.valueCount)
include kind count

theorem usableRecord_fits : usableRecord c (some r) = worksRecord r := by
  simp [usableRecord, worksRecord, kind, count]

theorem fallenRecord_fits : fallenRecord c (some r) = !(worksRecord r && !r.failing) := by
  simp [fallenRecord, usableRecord_fits kind count]

theorem healthyRecord_fits : healthyRecord c (some r) = (decide (r.state = .ready) && !r.failing) := by
  by_cases ready : r.state = .ready
  · simp [healthyRecord, usableRecord_fits kind count, worksRecord, ready]
  · simp [healthyRecord, ready]

end Fits

/-- R106: the record of a mapping, with its state and serving slot as the modules stand. -/
theorem mappedChannel_eq (f : MapFields) (primary : ModuleName) (spare : Option ModuleName) (a : ModuleRecord)
    {b : Option ModuleRecord} (pair : ∀ r, b = some r → r.kind = a.kind) :
    mappedChannel f primary spare a b =
      { state := (mappedAs a b).1, primary := some primary, spare := spare, kind := a.kind
        valueCount := mappedCount a b
        num := f.num, den := max 1 (min 32767 f.den), offset := max (-1000000) (min 1000000 f.offset)
        serving := (mappedAs a b).2, values := Vector.replicate 8 0, fresh := false, stamp := 0
        poor := b.isNone && worksRecord a && a.failing, staleAt := none } := by
  rw [← clampInt_eq (by decide), ← clampInt_eq (by decide)]
  cases b with
  | none =>
    unfold mappedChannel mappedAs mappedCount
    dsimp only
    rw [usableRecord_fits rfl (le_refl _)]
    cases worksRecord a <;> rfl
  | some b =>
    unfold mappedChannel mappedAs mappedCount
    dsimp only
    rw [fallenRecord_fits rfl (min_le_left _ _), fallenRecord_fits (pair b rfl) (min_le_right _ _),
      healthyRecord_fits (pair b rfl) (min_le_right _ _), healthyRecord_fits rfl (min_le_left _ _)]
    simp only [Bool.not_not]
    split
    · rfl
    · split <;> rfl

/-- R106, R113: a mapping with its notice, and the loss when it is LOST. -/
theorem mapChannel_eq (ch : ChannelId) (c : Channel) (s : State) :
    mapChannel ch c s =
      if c.state = .lost then channelLoss ch .loss (channelEntered s ch .mapped c)
      else channelEntered s ch .mapped c := by
  unfold mapChannel
  rw [channelNotice_setChannel]

theorem exec_mapSet {s : State} {i : Fin 8} (h : Accepts s .program i) (tag : Byte) (f : MapFields) :
    exec (.mapSet .program tag f) s =
      .next ((mapSet f (reserved s .program i 0x28#8 tag)).1.post .program i
        (mapSet f (reserved s .program i 0x28#8 tag)).2) :=
  next_congr (serve_accepted h .mapSet tag (mapSet f) fun _ => rfl)

/-- Settles O41: the checks of MAP_SET in their order, and the record of a mapping that passes them. -/
theorem mapSetMapsChannel : Obligations.MapSetMapsChannel := by
  unfold Obligations.MapSetMapsChannel
  refine ⟨fun s i tag f h out => ?_, fun s i tag f ch primary spare h channel port pos spared den => ?_⟩
  · exact next_congr (serve_answered h .mapSet tag (fun _ => rfl) (mapSet_out out _))
  intro start refused record busy taken
  have names : MapNames f ch primary spare := ⟨channel, port, pos, spared, den⟩
  have refuses {st : Status} (e : mapSet f start = (start, Reply.refuse st)) : refused st :=
    next_congr (serve_answered h .mapSet tag (fun _ => rfl) e)
  have same (n : Option ModuleName) : recordOf start n = n.bind record := by
    rw [recordOf_reserved]; cases n <;> rfl
  have free (idle : ¬busy) : ¬((start.channel ch).state = .waiting ∨ (start.channel ch).state = .copying) := by
    rwa [reserved_channel]
  have badValue (idle : ¬busy) (bad : record primary = none ∨ ∃ n, spare = some n ∧
      (record n = none ∨ n = primary ∨ (record n).map ModuleRecord.kind ≠ (record primary).map ModuleRecord.kind)) :
      refused .badValue := by
    refine refuses (mapSet_refused names (free idle) (mapRefusal_badValue ?_))
    rw [same, same]
    rcases bad with none | ⟨n, rfl, bad⟩
    · exact .inl none
    · exact .inr ⟨n, rfl, bad⟩
  refine ⟨fun b => refuses (mapSet_busy names (by rwa [reserved_channel])), fun idle none => badValue idle (.inl none),
    fun n idle e bad => badValue idle (.inr ⟨n, e, ?_⟩),
    fun n a b idle e held other kind => badValue idle (.inr ⟨n, e, ?_⟩), fun a idle held pair => ?_⟩
  · exact bad.imp_right .inl
  · rw [held, other]
    exact .inr (.inr (by simpa using kind))
  · have passes := mapRefusal_passes (s := start) (primary := primary) (spare := spare) (a := a)
      (fun n e => by rw [same]; exact pair n e) ch
    have backing (n : ModuleName) : backsAnother start ch n = true ↔ taken n := by
      rw [backsAnother_reserved]; exact backsAnother_iff s ch n
    simp only [backing] at passes
    refine ⟨fun inUse => refuses (mapSet_refused names (free idle) ?_), fun own other => ?_⟩
    · rw [same (some primary), Option.bind_some, held, passes]
      exact if_pos inUse
    · intro b usable serves healthy entered count v reply
      have made : mappedChannel f primary spare a (spare.bind record) = _ :=
        mappedChannel_eq f primary spare a fun r e => by
          obtain ⟨n, rfl, heldN⟩ := Option.bind_eq_some_iff.1 e
          obtain ⟨-, r', heldN', kind⟩ := pair n rfl
          rwa [Option.some.inj (heldN.symm.trans heldN')]
      have maps := mapSet_maps names (free idle) ((same (some primary)).trans held)
        (passes.trans (if_neg fun e => e.elim own fun ⟨n, e, t⟩ => other n e t))
      rw [same, made] at maps
      dsimp only at maps
      have clamped : (outOfRange 1 32767 f.den || outOfRange (-1000000) 1000000 f.offset) =
          decide (f.den < 1 ∨ 32767 < f.den ∨ f.offset < -1000000 ∨ 1000000 < f.offset) := by
        simp [outOfRange, Bool.or_assoc]
      rw [clamped, mapChannel_eq] at maps
      rw [exec_mapSet h, maps]
      exact next_congr rfl

end Sys2Proof.Machine

namespace Sys2Proof.Machine

open Sys2Proof.Safety

/-! ### One channel changed, with its notice (R113, R118) -/

@[simp] theorem State.setChannel_setChannel (s : State) (ch : ChannelId) (x y : Channel) :
    (s.setChannel ch x).setChannel ch y = s.setChannel ch y := by
  simp [State.setChannel]

theorem recordOf_eq (s : State) (n : Option ModuleName) : recordOf s n = n.bind fun x => s.module x.port x.pos := by
  cases n <;> rfl

@[simp] theorem recordOf_setChannel (s : State) (ch : ChannelId) (x : Channel) (n : Option ModuleName) :
    recordOf (s.setChannel ch x) n = recordOf s n := by
  cases n <;> rfl

/-- R118: a change of a channel of which another field was changed first. -/
theorem changeChannel_setChannel {s : State} {ch : ChannelId} {c : Channel} (same : c.state = (s.channel ch).state)
    (cause : ChannelCause) (f : Channel → Channel) :
    changeChannel ch cause f (s.setChannel ch c) = channelEntered s ch cause (f c) := by
  rw [changeChannel, State.modChannel, State.channel_setChannel_self, State.setChannel_setChannel, same,
    channelNotice_setChannel]

theorem local_channelEntered (s : State) (ch : ChannelId) (cause : ChannelCause) (x : Channel) :
    Local (s.setChannel ch x) (channelEntered s ch cause x) :=
  (quiet_placeBoth _ _).toLocal

theorem channel_channelEntered (s : State) (ch : ChannelId) (cause : ChannelCause) (x : Channel) :
    (channelEntered s ch cause x).channel ch = x := by
  rw [State.channel, (local_channelEntered s ch cause x).channels]
  exact State.channel_setChannel_self s ch x

theorem changeChannel_eq (ch : ChannelId) (cause : ChannelCause) (f : Channel → Channel) (s : State) :
    changeChannel ch cause f s = channelEntered s ch cause (f (s.channel ch)) :=
  channelNotice_setChannel s ch cause (f (s.channel ch))

/-- R113: an entry to LOST is a change to LOST with its notice, and the loss handed on. -/
theorem enterLost_eq_changeChannel (ch : ChannelId) (cause : ChannelCause) (s : State) :
    enterLost ch cause s = channelLoss ch .loss (changeChannel ch cause lostChannel s) := rfl

theorem enterLost_eq (ch : ChannelId) (cause : ChannelCause) (s : State) :
    enterLost ch cause s = channelLoss ch .loss (channelEntered s ch cause (lostChannel (s.channel ch))) := by
  rw [enterLost_eq_changeChannel, changeChannel_eq]

/-! ### The copy engine made free (R117) -/

theorem orphanCopy_eq (op : PageOp) :
    orphanCopy op = if op.origin = .copy then { op with origin := .orphan } else op := by
  unfold orphanCopy
  split
  · next e => rw [if_pos e]
  · next e => rw [if_neg (by rw [e]; exact nofun)]
  · next e => rw [if_neg (by rw [e]; exact nofun)]

theorem freeEngine_frame (s : State) : freeEngine s = { s with copy := none, chains := (freeEngine s).chains } := rfl

theorem chain_freeEngine (s : State) (p : PortId) :
    (freeEngine s).chain p =
      { s.chain p with queue := (s.chain p).queue.map orphanCopy, aside := (s.chain p).aside.map orphanCopy } := by
  refine (foldl_pointwise (get := State.chain)
    (g := fun _ c => { c with queue := c.queue.map orphanCopy, aside := c.aside.map orphanCopy }) (fun t i j => ?_)
    nodup_allPorts { s with copy := none } p).trans (if_pos (mem_allPorts p))
  exact State.chain_setChain t i j _

theorem freeEngine_setChannel (s : State) (ch : ChannelId) (x : Channel) :
    freeEngine (s.setChannel ch x) = (freeEngine s).setChannel ch x := rfl

theorem failCopy_eq (ch : ChannelId) (cause : ChannelCause) (s : State) :
    failCopy ch cause s =
      runEngine 16 (channelLoss ch .loss (channelEntered (freeEngine s) ch cause (lostChannel (s.channel ch)))) := by
  rw [failCopy, enterLost_eq]
  rfl

/-! ### Modules judged for a channel (R105, R112) -/

theorem usableRecord_eq (c : Channel) (r : Option ModuleRecord) :
    usableRecord c r = r.any fun x =>
      decide (x.kind = c.kind ∧ c.valueCount ≤ x.valueCount ∧ (x.state = .settling ∨ x.state = .ready)) := by
  cases r with
  | none => rfl
  | some r => simp [usableRecord, Bool.and_assoc]

theorem fallenRecord_eq (c : Channel) (r : Option ModuleRecord) :
    fallenRecord c r = (!usableRecord c r || r.any ModuleRecord.failing) := by
  cases r <;> rfl

theorem healthyRecord_eq (c : Channel) (r : Option ModuleRecord) :
    healthyRecord c r = (!fallenRecord c r && r.any fun x => decide (x.state = .ready)) := by
  cases r with
  | none => rfl
  | some r => simp [healthyRecord, fallenRecord, Bool.and_right_comm]

/-- R105: a healthy module does not fall. -/
theorem fallenRecord_of_healthy {c : Channel} {r : Option ModuleRecord} (healthy : healthyRecord c r = true) :
    fallenRecord c r = false := by
  rw [healthyRecord_eq, Bool.and_eq_true, Bool.not_eq_true'] at healthy
  exact healthy.1

/-- R112: a module that does not fall is usable. -/
theorem usableRecord_of_not_fallen {c : Channel} {r : Option ModuleRecord} (stands : fallenRecord c r = false) :
    usableRecord c r = true := by
  rw [fallenRecord_eq, Bool.or_eq_false_iff, Bool.not_eq_false'] at stands
  exact stands.1

/-! ### Freshness judged (R110) -/

theorem Chain.live_eq (c : Chain) : c.live = decide (c.state = .active ∨ c.state = .degraded) := by
  simp [Chain.live]

/-- R110: the serving module of a channel is READY on a chain in ACTIVE or DEGRADED, or it names none. -/
def staysFresh (s : State) (c : Channel) : Bool :=
  match Channel.servingModule c with
  | none => true
  | some x => ((recordOf s (Channel.servingModule c)).any fun r => decide (r.state = .ready)) &&
    decide ((s.chain x.port).state = .active ∨ (s.chain x.port).state = .degraded)

/-- R110: the record of a channel once its freshness has been judged. -/
def freshened (s : State) (c : Channel) : Channel := if staysFresh s c then c else staleChannel c

@[simp] theorem freshened_state (s : State) (c : Channel) : (freshened s c).state = c.state := by
  unfold freshened; split <;> rfl
@[simp] theorem freshened_primary (s : State) (c : Channel) : (freshened s c).primary = c.primary := by
  unfold freshened; split <;> rfl
@[simp] theorem freshened_spare (s : State) (c : Channel) : (freshened s c).spare = c.spare := by
  unfold freshened; split <;> rfl
@[simp] theorem freshened_poor (s : State) (c : Channel) : (freshened s c).poor = c.poor := by
  unfold freshened; split <;> rfl
@[simp] theorem freshened_serving (s : State) (c : Channel) : (freshened s c).serving = c.serving := by
  unfold freshened; split <;> rfl
@[simp] theorem servingModule_freshened (s : State) (c : Channel) :
    Channel.servingModule (freshened s c) = Channel.servingModule c := by
  unfold freshened; split <;> rfl
@[simp] theorem otherModule_freshened (s : State) (c : Channel) :
    Channel.otherModule (freshened s c) = Channel.otherModule c := by
  unfold freshened; split <;> rfl
@[simp] theorem staleChannel_freshened (s : State) (c : Channel) : staleChannel (freshened s c) = staleChannel c := by
  unfold freshened; split <;> rfl
@[simp] theorem usableRecord_freshened (s : State) (c : Channel) (r : Option ModuleRecord) :
    usableRecord (freshened s c) r = usableRecord c r := by
  unfold freshened; split <;> rfl
@[simp] theorem fallenRecord_freshened (s : State) (c : Channel) (r : Option ModuleRecord) :
    fallenRecord (freshened s c) r = fallenRecord c r := by
  rw [fallenRecord_eq, usableRecord_freshened, ← fallenRecord_eq]
@[simp] theorem healthyRecord_freshened (s : State) (c : Channel) (r : Option ModuleRecord) :
    healthyRecord (freshened s c) r = healthyRecord c r := by
  rw [healthyRecord_eq, fallenRecord_freshened, ← healthyRecord_eq]

theorem judgeFresh_eq (ch : ChannelId) (s : State) :
    judgeFresh ch s = s.setChannel ch (freshened s (s.channel ch)) := by
  have keeps : s = s.setChannel ch (s.channel ch) := (State.setChannel_channel s ch).symm
  unfold judgeFresh freshened staysFresh
  cases named : Channel.servingModule (s.channel ch) with
  | none => exact keeps
  | some x =>
    cases held : s.module x.port x.pos with
    | none => simp [recordOf, held, State.modChannel]
    | some r =>
      simp only [recordOf, held, Option.any_some]
      rw [← Chain.live_eq]
      split
      · exact keeps
      · rfl

@[simp] theorem channel_judgeFresh (ch : ChannelId) (s : State) :
    (judgeFresh ch s).channel ch = freshened s (s.channel ch) := by
  rw [judgeFresh_eq, State.channel_setChannel_self]

@[simp] theorem recordOf_judgeFresh (ch : ChannelId) (s : State) (n : Option ModuleName) :
    recordOf (judgeFresh ch s) n = recordOf s n := by
  rw [judgeFresh_eq, recordOf_setChannel]

@[simp] theorem copy_judgeFresh (ch : ChannelId) (s : State) : (judgeFresh ch s).copy = s.copy := by
  rw [judgeFresh_eq, State.setChannel_copy]

@[simp] theorem changeChannel_judgeFresh (ch : ChannelId) (cause : ChannelCause) (f : Channel → Channel) (s : State) :
    changeChannel ch cause f (judgeFresh ch s) = channelEntered s ch cause (f (freshened s (s.channel ch))) := by
  rw [judgeFresh_eq, changeChannel_setChannel (freshened_state s _)]

@[simp] theorem enterLost_judgeFresh (ch : ChannelId) (cause : ChannelCause) (s : State) :
    enterLost ch cause (judgeFresh ch s) =
      channelLoss ch .loss (channelEntered s ch cause (lostChannel (s.channel ch))) := by
  rw [enterLost_eq_changeChannel, changeChannel_judgeFresh, lostChannel, staleChannel_freshened]
  rfl

@[simp] theorem failCopy_judgeFresh (ch : ChannelId) (cause : ChannelCause) (s : State) :
    failCopy ch cause (judgeFresh ch s) =
      runEngine 16 (channelLoss ch .loss (channelEntered (freeEngine s) ch cause (lostChannel (s.channel ch)))) := by
  have same : (freshened s (s.channel ch)).state = ((freeEngine s).channel ch).state := freshened_state s _
  rw [failCopy, judgeFresh_eq, freeEngine_setChannel, enterLost_eq_changeChannel, changeChannel_setChannel same,
    lostChannel, staleChannel_freshened]
  rfl

/-! ### One channel judged (R112, Table 6-5) -/

/-- R112: the record of the serving module. -/
def servingRecord (s : State) (ch : ChannelId) : Option ModuleRecord :=
  recordOf s (Channel.servingModule (s.channel ch))

/-- R112: the record of the non-serving module. -/
def otherRecord (s : State) (ch : ChannelId) : Option ModuleRecord :=
  recordOf s (Channel.otherModule (s.channel ch))

/-- R112: a SINGLE channel, by whether its module is usable, falls, and by POOR. -/
theorem judgeSingle_eq (ch : ChannelId) (s : State) :
    judgeSingle ch s =
      if usableRecord (s.channel ch) (servingRecord s ch) then
        if fallenRecord (s.channel ch) (servingRecord s ch) = (s.channel ch).poor then s
        else if (s.channel ch).poor then changeChannel ch .poorCleared (fun x => { x with poor := false }) s
        else changeChannel ch .poorSet (fun x => { x with poor := true }) s
      else enterLost ch .servingLost s := by
  unfold judgeSingle servingRecord
  dsimp only
  cases recordOf s (Channel.servingModule (s.channel ch)) with
  | none => rfl
  | some r =>
    dsimp only
    cases usable : usableRecord (s.channel ch) (some r) with
    | false => rfl
    | true =>
      rw [fallenRecord_eq, usable]
      cases failing : r.failing <;> cases (s.channel ch).poor <;> simp [failing]

/-- R116: the slot to which a copy switches. -/
def otherSlot : ServingSlot → ServingSlot
  | .primary => .spare
  | .spare => .primary

/-- R116: the copy of a channel whose freshness was judged completes. -/
theorem completeCopy_judgeFresh (ch : ChannelId) (s : State) :
    completeCopy ch (judgeFresh ch s) =
      runEngine 16
        { channelEntered s ch .copyDone
            { staleChannel (s.channel ch) with
              state := if healthyRecord (s.channel ch) (servingRecord s ch) then .redundant else .exposed
              serving := otherSlot (s.channel ch).serving } with
          copy := none } := by
  unfold completeCopy servingRecord
  dsimp only
  rw [channel_judgeFresh, servingModule_freshened, recordOf_judgeFresh, changeChannel_judgeFresh,
    staleChannel_freshened, healthyRecord_freshened, freshened_serving]
  rfl

/-- R113: a LOST channel whose freshness was judged. -/
theorem recoverChannel_judgeFresh (ch : ChannelId) (s : State) :
    let first := healthyRecord (s.channel ch) (recordOf s (s.channel ch).primary)
    let second := healthyRecord (s.channel ch) (recordOf s (s.channel ch).spare)
    recoverChannel ch (judgeFresh ch s) =
      if first || second then
        channelEntered s ch .recovered
          { freshened s (s.channel ch) with
            serving := if first then .primary else .spare
            state := if (s.channel ch).spare = none then .single else if first && second then .redundant else .exposed }
      else judgeFresh ch s := by
  have single (x y : ChannelState) :
      (if (s.channel ch).spare.isNone then x else y) = if (s.channel ch).spare = none then x else y :=
    if_congr Option.isNone_iff_eq_none rfl rfl
  unfold recoverChannel
  dsimp only
  rw [channel_judgeFresh, freshened_primary, freshened_spare, recordOf_judgeFresh, recordOf_judgeFresh,
    healthyRecord_freshened, healthyRecord_freshened, changeChannel_judgeFresh, freshened_primary, freshened_spare,
    single]

section Judged

variable {s : State} {ch : ChannelId}

theorem judgeChannel_unmapped (e : (s.channel ch).state = .unmapped) : judgeChannel ch s = judgeFresh ch s := by
  simp [judgeChannel, e]

theorem judgeChannel_single (e : (s.channel ch).state = .single) :
    judgeChannel ch s =
      if usableRecord (s.channel ch) (servingRecord s ch) then
        if fallenRecord (s.channel ch) (servingRecord s ch) = (s.channel ch).poor then judgeFresh ch s
        else if (s.channel ch).poor then
          channelEntered s ch .poorCleared { freshened s (s.channel ch) with poor := false }
        else channelEntered s ch .poorSet { freshened s (s.channel ch) with poor := true }
      else channelLoss ch .loss (channelEntered s ch .servingLost (lostChannel (s.channel ch))) := by
  have judged : judgeChannel ch s = judgeSingle ch (judgeFresh ch s) := by simp [judgeChannel, e]
  rw [judged, judgeSingle_eq, servingRecord, channel_judgeFresh, servingModule_freshened, recordOf_judgeFresh,
    usableRecord_freshened, fallenRecord_freshened, freshened_poor, changeChannel_judgeFresh, changeChannel_judgeFresh,
    enterLost_judgeFresh, servingRecord]

/-- R112: a serving module that falls, by whether its partner is healthy. -/
theorem judgeChannel_falls (e : (s.channel ch).state = .redundant ∨ (s.channel ch).state = .exposed)
    (falls : fallenRecord (s.channel ch) (servingRecord s ch) = true) :
    judgeChannel ch s =
      if healthyRecord (s.channel ch) (otherRecord s ch) then
        runEngine 16 (channelEntered s ch .servingFailed { staleChannel (s.channel ch) with state := .waiting })
      else channelLoss ch .loss (channelEntered s ch .servingLost (lostChannel (s.channel ch))) := by
  rw [servingRecord] at falls
  have judged : judgeChannel ch s = servingFalls ch (judgeFresh ch s) := by
    rcases e with e | e <;> simp [judgeChannel, e, falls]
  rw [judged, servingFalls, channel_judgeFresh, otherModule_freshened, recordOf_judgeFresh, healthyRecord_freshened,
    changeChannel_judgeFresh, staleChannel_freshened, enterLost_judgeFresh, otherRecord]

section Stands

variable (stands : fallenRecord (s.channel ch) (servingRecord s ch) = false)
include stands

/-- R112: a pair that stays as it is. -/
theorem judgeChannel_pair_stays (e : (s.channel ch).state = .redundant ∨ (s.channel ch).state = .exposed)
    (agrees : (s.channel ch).state = .redundant ↔ healthyRecord (s.channel ch) (otherRecord s ch) = true) :
    judgeChannel ch s = judgeFresh ch s := by
  rw [servingRecord] at stands
  rw [otherRecord] at agrees
  rcases e with e | e
  · simp [judgeChannel, e, stands, agrees.1 e]
  · have ill : ¬healthyRecord (s.channel ch) (recordOf s (Channel.otherModule (s.channel ch))) = true :=
      fun healthy => absurd (e.symm.trans (agrees.2 healthy)) (by decide)
    simp [judgeChannel, e, stands, ill]

theorem judgeChannel_redundant_ill (e : (s.channel ch).state = .redundant)
    (ill : healthyRecord (s.channel ch) (otherRecord s ch) = false) :
    judgeChannel ch s = channelEntered s ch .otherUnhealthy { freshened s (s.channel ch) with state := .exposed } := by
  rw [servingRecord] at stands
  rw [otherRecord] at ill
  simp [judgeChannel, e, stands, ill]

theorem judgeChannel_exposed_healthy (e : (s.channel ch).state = .exposed)
    (healthy : healthyRecord (s.channel ch) (otherRecord s ch) = true) :
    judgeChannel ch s = channelEntered s ch .otherHealthy { freshened s (s.channel ch) with state := .redundant } := by
  rw [servingRecord] at stands
  rw [otherRecord] at healthy
  simp [judgeChannel, e, stands, healthy]

end Stands

theorem judgeChannel_waiting_falls (e : (s.channel ch).state = .waiting)
    (falls : fallenRecord (s.channel ch) (otherRecord s ch) = true) :
    judgeChannel ch s = channelLoss ch .loss (channelEntered s ch .targetLost (lostChannel (s.channel ch))) := by
  rw [otherRecord] at falls
  simp [judgeChannel, e, falls]

theorem judgeChannel_waiting_stays (e : (s.channel ch).state = .waiting)
    (stands : fallenRecord (s.channel ch) (otherRecord s ch) = false) : judgeChannel ch s = judgeFresh ch s := by
  rw [otherRecord] at stands
  simp [judgeChannel, e, stands]

/-- R117: the target of a copy falls. -/
theorem judgeChannel_copying_falls (e : (s.channel ch).state = .copying)
    (falls : fallenRecord (s.channel ch) (otherRecord s ch) = true) :
    judgeChannel ch s =
      runEngine 16 (channelLoss ch .loss
        (channelEntered (freeEngine s) ch .targetLost (lostChannel (s.channel ch)))) := by
  rw [otherRecord] at falls
  simp [judgeChannel, e, falls]

/-- R116: the target of a copy is healthy, and the START write done. -/
theorem judgeChannel_copying_done (e : (s.channel ch).state = .copying) {k : Copy} (busy : s.copy = some k)
    (written : k.written = 4) (healthy : healthyRecord (s.channel ch) (otherRecord s ch) = true) :
    judgeChannel ch s = completeCopy ch (judgeFresh ch s) := by
  have stands := fallenRecord_of_healthy healthy
  rw [otherRecord] at healthy stands
  simp [judgeChannel, e, stands, healthy, busy, written]

/-- R116: the target of a copy stands, and the copy goes on. -/
theorem judgeChannel_copying_stays (e : (s.channel ch).state = .copying)
    (stands : fallenRecord (s.channel ch) (otherRecord s ch) = false)
    (going : healthyRecord (s.channel ch) (otherRecord s ch) = false ∨ ∀ k, s.copy = some k → k.written ≠ 4) :
    judgeChannel ch s = judgeFresh ch s := by
  rw [otherRecord] at stands going
  cases busy : s.copy with
  | none => simp [judgeChannel, e, stands, busy]
  | some k =>
    rcases going with ill | few
    · simp [judgeChannel, e, stands, busy, ill]
    · simp [judgeChannel, e, stands, busy, few k busy]

theorem judgeChannel_lost (e : (s.channel ch).state = .lost) :
    judgeChannel ch s = recoverChannel ch (judgeFresh ch s) := by
  simp [judgeChannel, e]

end Judged

/-! ### Module reports (R104, R112) -/

theorem namesReported_iff (c : Channel) (p : PortId) (ks : List ModulePos) :
    namesReported c p ks = true ↔
      c.state ≠ .unmapped ∧ ∃ k ∈ ks, c.primary = some ⟨p, k⟩ ∨ c.spare = some ⟨p, k⟩ := by
  simp [namesReported]

/-- R112: a report judges each channel that it names in its turn; a report of no module names none. -/
theorem moduleReport_eq (p : PortId) (ks : List ModulePos) (s : State) :
    moduleReport p ks s =
      allChannels.foldl (fun t ch => if namesReported (t.channel ch) p ks then judgeChannel ch t else t) s := by
  unfold moduleReport
  split
  · next none =>
    subst none
    exact (foldl_fixed_of_mem fun ch _ => if_neg (by simp [namesReported])).symm
  · rfl

/-! ### The copy engine (R90, R114, R115) -/

/-- R115: the chain of a module takes the writes of a copy for it. -/
def TakesWrites (s : State) (x : ModuleName) : Prop :=
  ((s.chain x.port).state = .active ∨ (s.chain x.port).state = .degraded) ∧
    ∃ r, s.module x.port x.pos = some r ∧ r.state ≠ .absent

/-- R90: a copy write handed in, at the tail of the queue, or held aside while that is full. -/
def handedWrite (s : State) (x : ModuleName) (page : Page) (bytes : PageBytes) : State :=
  let q := s.chain x.port
  let op : PageOp := ⟨x.pos, page, some bytes, 0, .copy⟩
  s.setChain x.port
    (if q.queue.length < 8 then { q with queue := q.queue ++ [op] } else { q with aside := q.aside ++ [op] })

theorem copy_handedWrite (s : State) (x : ModuleName) (page : Page) (bytes : PageBytes) :
    (handedWrite s x page bytes).copy = s.copy := rfl

theorem handNext_takes {k : Copy} {s : State} {x : ModuleName} {page : Page} {bytes : PageBytes}
    (target : Channel.otherModule (s.channel k.channel) = some x) (write : nextWrite k = some (page, bytes))
    (takes : TakesWrites s x) : handNext k s = some (handedWrite s x page bytes) := by
  obtain ⟨live, r, held, there⟩ := takes
  have passes : pageRefusal (s.chain x.port) x.pos = none := by
    rw [pageRefusal_record (by rw [Chain.live_eq]; exact decide_eq_true live) held, if_neg there]
  unfold handNext
  rw [target, write]
  dsimp only
  unfold handCopyWrite handedWrite
  dsimp only
  rw [passes]
  dsimp only
  split <;> rfl

theorem copySet_pages {r : ModuleRecord} {f g h i : PageBytes} (format : r.format = some f) (range : r.range = some g)
    (rate : r.rate = some h) (start : r.start = some i) (ch : ChannelId) :
    copySet ch (some r) = some ⟨ch, f, g, h, i, 0⟩ := by
  simp [copySet, format, range, rate, start]

theorem copySet_bare {r : Option ModuleRecord}
    (bare : ∀ x, r = some x → x.format = none ∨ x.range = none ∨ x.rate = none ∨ x.start = none) (ch : ChannelId) :
    copySet ch r = none := by
  cases r with
  | none => rfl
  | some x =>
    rcases bare x rfl with e | e | e | e <;> simp [copySet, e]

/-- The lowest-numbered channel that meets a test is the first that a search in channel number order finds. -/
theorem find?_allChannels {test : ChannelId → Bool} {ch : ChannelId} (here : test ch = true)
    (lowest : ∀ k, k < ch → test k = false) : allChannels.find? test = some ch := by
  obtain ⟨before, after, split⟩ := List.append_of_mem (mem_allChannels ch)
  have sorted := allChannels_pairwise_lt
  rw [split, List.pairwise_append] at sorted
  refine List.find?_eq_some_iff_append.2 ⟨here, before, after, split, fun k mem => ?_⟩
  rw [lowest k (sorted.2.2 k mem ch List.mem_cons_self)]
  rfl

/-- R114: the lowest-numbered channel that waits. -/
theorem lowestWaiting_eq {s : State} {ch : ChannelId} (waits : (s.channel ch).state = .waiting)
    (lowest : ∀ k, k < ch → (s.channel k).state ≠ .waiting) : lowestWaiting s = some ch :=
  find?_allChannels (decide_eq_true waits) fun k lt => decide_eq_false (lowest k lt)

theorem runEngine_busy {s : State} (busy : s.copy ≠ none) (n : Nat) : runEngine n s = s := by
  cases n with
  | zero => rfl
  | succ n => exact if_pos (Option.isSome_iff_ne_none.2 busy)

theorem runEngine_idle {s : State} (none : ∀ ch, (s.channel ch).state ≠ .waiting) (n : Nat) : runEngine n s = s := by
  have empty : lowestWaiting s = Option.none := List.find?_eq_none.2 fun ch _ => by simpa using none ch
  cases n with
  | zero => rfl
  | succ n =>
    unfold runEngine
    rw [empty]
    exact ite_self s

theorem runEngine_takes {s : State} {ch : ChannelId} (free : s.copy = none)
    (waits : (s.channel ch).state = .waiting) (lowest : ∀ k, k < ch → (s.channel k).state ≠ .waiting) (n : Nat) :
    runEngine (n + 1) s = runEngine n (startCopy ch s) := by
  rw [runEngine, free, lowestWaiting_eq waits lowest]
  rfl

/-- R115: the channel of a copy that begins, with the copy set that the engine holds. -/
def copyBegun (k : Copy) (s : State) : State :=
  channelEntered { s with copy := some k } k.channel .copyStarted
    { staleChannel (s.channel k.channel) with state := .copying }

theorem channel_copyBegun (k : Copy) (s : State) :
    (copyBegun k s).channel k.channel = { staleChannel (s.channel k.channel) with state := .copying } :=
  channel_channelEntered _ _ _ _

theorem copy_copyBegun (k : Copy) (s : State) : (copyBegun k s).copy = some k :=
  (local_channelEntered _ _ _ _).copy

theorem takesWrites_copyBegun {k : Copy} {s : State} {x : ModuleName} (takes : TakesWrites s x) :
    TakesWrites (copyBegun k s) x := by
  have same : (copyBegun k s).chains = s.chains := (local_channelEntered _ _ _ _).allChains
  unfold TakesWrites State.module State.chain
  rw [same]
  exact takes

/-- R115: a channel taken by the engine whose serving module holds all four pages. -/
theorem startCopy_begins {s : State} {ch : ChannelId} {k : Copy} {x : ModuleName}
    (set : copySet ch (servingRecord s ch) = some k) (here : k.channel = ch) (first : k.written = 0)
    (target : Channel.otherModule (s.channel ch) = some x) (takes : TakesWrites s x) :
    startCopy ch s = handedWrite (copyBegun k s) x .format k.format := by
  subst here
  have begun : changeChannel k.channel .copyStarted (fun c => { staleChannel c with state := .copying })
      { s with copy := some k } = copyBegun k s := changeChannel_eq _ _ _ _
  have toward : Channel.otherModule ((copyBegun k s).channel k.channel) = some x := by
    rw [channel_copyBegun]; exact target
  have write : nextWrite k = some (.format, k.format) := by rw [nextWrite, first]; rfl
  rw [servingRecord] at set
  unfold startCopy
  rw [set]
  dsimp only
  rw [begun, handNext_takes toward write (takesWrites_copyBegun takes)]

theorem startCopy_bare {s : State} {ch : ChannelId} (set : copySet ch (servingRecord s ch) = none) :
    startCopy ch s = channelLoss ch .loss (channelEntered s ch .copyFailed (lostChannel (s.channel ch))) := by
  rw [servingRecord] at set
  unfold startCopy
  rw [set]
  exact enterLost_eq ch .copyFailed s

/-! ### Writes of a copy that end (R115, R117) -/

theorem copyWriteEnded_free {s : State} (free : s.copy = none) (done : Bool) : copyWriteEnded done s = s := by
  unfold copyWriteEnded
  rw [free]

section Busy

variable {s : State} {k : Copy} (busy : s.copy = some k)
include busy

theorem copyWriteEnded_hands {x : ModuleName} {page : Page} {bytes : PageBytes} (more : k.written + 1 < 4)
    (target : Channel.otherModule (s.channel k.channel) = some x)
    (write : nextWrite { k with written := k.written + 1 } = some (page, bytes)) (takes : TakesWrites s x) :
    copyWriteEnded true s = handedWrite { s with copy := some { k with written := k.written + 1 } } x page bytes := by
  have handed : handNext { k with written := k.written + 1 }
      { s with copy := some { k with written := k.written + 1 } } = some _ := handNext_takes target write takes
  unfold copyWriteEnded
  rw [busy]
  dsimp only
  rw [if_pos rfl, if_pos more, handed]

theorem copyWriteEnded_last (last : k.written = 3) :
    copyWriteEnded true s = { s with copy := some { k with written := k.written + 1 } } := by
  unfold copyWriteEnded
  rw [busy]
  dsimp only
  rw [if_pos rfl, if_neg (by omega)]

theorem copyWriteEnded_fails :
    copyWriteEnded false s =
      runEngine 16 (channelLoss k.channel .loss
        (channelEntered (freeEngine s) k.channel .copyFailed (lostChannel (s.channel k.channel)))) := by
  unfold copyWriteEnded
  rw [busy]
  exact (if_neg (by decide)).trans (failCopy_eq k.channel .copyFailed s)

end Busy

/-! ### SETTLE_EXPIRY (R99, R104, R116) -/

theorem changeModule_settled {s : State} {p : PortId} {k : ModulePos} {r : ModuleRecord} (held : s.module p k = some r)
    (settling : r.state = .settling) :
    changeModule p k .settled readyRecord s =
      (s.setModule p k (readyRecord r)).placeBoth
        (.moduleState p k r.kind r.model .settling .ready .settled r.failing r.bucket r.misses s.time) := by
  have stays : ¬(r.state = .ready ∧ (readyRecord r).state ≠ .ready) := fun both =>
    absurd (settling.symm.trans both.1) (by decide)
  rw [changeModule_eq held, if_neg stays, settling]
  exact moduleNotice_eq (State.module_setModule held (readyRecord r)) .settling .settled

/-- Settles O37: a channel judged in each of its states, a report as the judging of the channels it names, the copy
engine free and busy, and the report of a module that has settled. -/
theorem moduleReportsJudgeChannels : Obligations.ModuleReportsJudgeChannels := by
  unfold Obligations.ModuleReportsJudgeChannels
  refine ⟨fun s ch => ?_, fun s p ks => ?_, fun s => ?_, fun s p k r held settling => ?_⟩
  · intro c record name serving other usable falls healthy fresh stale c1 lost stays
    have records : record = recordOf s := funext fun x => (recordOf_eq s x).symm
    have servingIs : serving = servingRecord s ch := congrFun records _
    have otherIs : other = otherRecord s ch := congrFun records _
    have usableIs : usable = usableRecord c := funext fun r => (usableRecord_eq c r).symm
    have fallsIs : falls = fallenRecord c := funext fun r => by rw [fallenRecord_eq, ← usableIs]
    have healthyIs : healthy = healthyRecord c := funext fun r => by rw [healthyRecord_eq, ← fallsIs]
    have freshIs : c1 = freshened s c := by
      unfold freshened staysFresh
      rw [← records]
      rfl
    have still (e : judgeChannel ch s = judgeFresh ch s) : stays := by
      rw [judgeFresh_eq] at e
      exact e.trans (by rw [freshIs])
    rw [servingIs, otherIs, usableIs, fallsIs, healthyIs, freshIs, records]
    refine ⟨fun e => still (judgeChannel_unmapped e), fun e => ?_, fun e => ?_, fun e => ?_, fun e => ?_,
      fun e => ?_⟩
    · have judged := judgeChannel_single e
      refine ⟨fun gone => judged.trans (if_neg (by rw [gone]; decide)), fun there fallen clear => ?_,
        fun stands poor => ?_, fun there same => still (judged.trans ((if_pos there).trans (if_pos same)))⟩
      · rw [judged, if_pos there, fallen, clear, if_neg (by decide), if_neg (by decide)]
      · rw [judged, if_pos (usableRecord_of_not_fallen stands), stands, poor, if_neg (by decide), if_pos rfl]
    · refine ⟨fun fallen well => (judgeChannel_falls e fallen).trans (if_pos well),
        fun fallen ill => (judgeChannel_falls e fallen).trans (if_neg (by rw [ill]; decide)),
        fun stands redundant ill => judgeChannel_redundant_ill stands redundant ill,
        fun stands exposed well => judgeChannel_exposed_healthy stands exposed well,
        fun stands agrees => still (judgeChannel_pair_stays stands e agrees)⟩
    · exact ⟨judgeChannel_waiting_falls e, fun stands => still (judgeChannel_waiting_stays e stands)⟩
    · exact ⟨judgeChannel_copying_falls e,
        fun k busy written well => (judgeChannel_copying_done e busy written well).trans (completeCopy_judgeFresh ch s),
        fun stands going => still (judgeChannel_copying_stays e stands going)⟩
    · intro first second
      have judged := (judgeChannel_lost e).trans (recoverChannel_judgeFresh ch s)
      exact ⟨fun well => judged.trans (if_pos well), fun ill => still (judged.trans (if_neg (by rw [ill]; decide)))⟩
  · rw [moduleReport_eq]
    exact congrArg (fun f => allChannels.foldl f s)
      (funext fun t => funext fun ch => if_congr (namesReported_iff (t.channel ch) p ks) rfl rfl)
  · intro handed takes target lost
    refine ⟨fun none => ?_, fun ch free waits lowest => ?_, fun free => copyWriteEnded_free free,
      fun k busy => ?_, ?_⟩
    · exact none.elim (runEngine_busy · 16) (runEngine_idle · 16)
    · intro served
      have servedIs : served = servingRecord s ch := (recordOf_eq s _).symm
      have taken := runEngine_takes free waits lowest 15
      refine ⟨fun r f g h i x held format range rate start toward ready => ?_, fun bare => ?_⟩
      · have set : copySet ch (servingRecord s ch) = some ⟨ch, f, g, h, i, 0⟩ := by
          rw [← servedIs, held]
          exact copySet_pages format range rate start ch
        rw [taken, startCopy_begins set rfl rfl toward ready, runEngine_busy]
        · rfl
        · rw [copy_handedWrite, copy_copyBegun]
          exact nofun
      · rw [taken, startCopy_bare (copySet_bare (by rwa [← servedIs]) ch)]
        rfl
    · intro further
      refine ⟨fun x toward ready => ⟨fun written => ?_, fun written => ?_, fun written => ?_⟩,
        copyWriteEnded_last busy, copyWriteEnded_fails busy⟩
      · exact copyWriteEnded_hands busy (by omega) toward (by rw [nextWrite, written]; rfl) ready
      · exact copyWriteEnded_hands busy (by omega) toward (by rw [nextWrite, written]; rfl) ready
      · exact copyWriteEnded_hands busy (by omega) toward (by rw [nextWrite, written]; rfl) ready
    · intro ended t
      have endedIs : orphanCopy = ended := funext orphanCopy_eq
      refine ⟨rfl, fun p => ?_, freeEngine_frame s⟩
      rw [← endedIs]
      exact chain_freeEngine s p
  · intro t
    have done : exec (.settleExpiry p k) s = .next (handOutFrom p t) := by
      rw [exec_settleExpiry held settling, changeModule_settled held settling]
      rfl
    exact ⟨done, fun none => done.trans (next_congr (handOutFrom_none none p))⟩

end Sys2Proof.Machine

namespace Sys2Proof.Machine

open Sys2Proof.Safety

/-! ### Where a record goes (R121, R167) -/

section Placement

variable {k : Nat} {creator : Fin k → Option Source} {src : Source}

theorem placeEntry_out {n : Nat} (out : k ≤ n) (all : List (Fin k)) :
    placeEntry all creator src (.number n) = .refused .badValue := by
  simp only [placeEntry, index_of_le out]

/-- R167: TABLET does not replace a record of PROGRAM. -/
theorem placeEntry_notPermitted {n : Fin k} (tablet : src = .tablet) (held : creator n = some .program)
    (all : List (Fin k)) : placeEntry all creator src (.number n.val) = .refused .notPermitted := by
  simp only [placeEntry, index_val, held]
  exact if_pos ⟨tablet, nofun⟩

theorem placeEntry_named {n : Fin k} (may : src = .program ∨ creator n ≠ some .program) (all : List (Fin k)) :
    placeEntry all creator src (.number n.val) = .at n := by
  simp only [placeEntry, index_val]
  split
  · next c held =>
    refine if_neg fun ⟨tablet, other⟩ => ?_
    rcases may with program | free
    · exact nomatch program.symm.trans tablet
    · cases c with
      | program => exact free held
      | tablet => exact other rfl
  · rfl

theorem placeEntry_any {all : List (Fin k)} {n : Fin k} (first : all.find? (fun i => (creator i).isNone) = some n) :
    placeEntry all creator src .any = .at n := by
  simp only [placeEntry, first]

theorem placeEntry_full (taken : ∀ n, creator n ≠ none) (all : List (Fin k)) :
    placeEntry all creator src .any = .refused .full := by
  have no : all.find? (fun i => (creator i).isNone) = none :=
    List.find?_eq_none.2 fun n _ => by simpa using taken n
  simp only [placeEntry, no]

end Placement

/-- R121: ANY takes the lowest empty entry. Entries carry the numbers of channels, 0 to 15. -/
theorem placeEntry_lowest {creator : EntryId → Option Source} {n : EntryId} (empty : creator n = none)
    (lowest : ∀ k, k < n → creator k ≠ none) (src : Source) : placeEntry allEntries creator src .any = .at n :=
  placeEntry_any (find?_allChannels (test := fun i => (creator i).isNone) (by rw [empty]; rfl)
    fun k lt => by simpa [Option.isSome_iff_ne_none] using lowest k lt)

/-! ### WATCH_CLEAR, REACT_CLEAR and REACT_READ (R122, R128) -/

theorem mayRemove_iff (src creator : Source) :
    mayRemove src creator = true ↔ src = .program ∨ creator = .tablet := by
  simp [mayRemove]

/-- R167: TABLET does not remove a record of PROGRAM. -/
theorem mayRemove_eq_false {src creator : Source} (tablet : src = .tablet) (program : creator = .program) :
    mayRemove src creator = false := by
  subst tablet program; rfl

section Entries

variable {s : State} {src : Source} {n : EntryId}

theorem watchClear_out {n : Nat} (out : 16 ≤ n) : watchClear src n s = (s, Reply.refuse .badValue) := by
  simp only [watchClear, index_of_le out]

theorem watchClear_empty (empty : s.watch n = none) : watchClear src n.val s = (s, Reply.ok false .empty) := by
  simp only [watchClear, index_val, empty]

theorem watchClear_held {w : Watch} (held : s.watch n = some w) :
    watchClear src n.val s =
      if mayRemove src w.creator then (s.setWatch n none, Reply.ok false (.fires w.fires))
      else (s, Reply.refuse .notPermitted) := by
  simp only [watchClear, index_val, held]

theorem reactClear_out {n : Nat} (out : 16 ≤ n) : reactClear src n s = (s, Reply.refuse .badValue) := by
  simp only [reactClear, index_of_le out]

theorem reactClear_empty (empty : s.reaction n = none) : reactClear src n.val s = (s, Reply.ok false .empty) := by
  simp only [reactClear, index_val, empty]

theorem reactClear_held {r : Reaction} (held : s.reaction n = some r) :
    reactClear src n.val s =
      if mayRemove src r.creator then (s.setReaction n none, Reply.ok false (.counts r.fires r.skips))
      else (s, Reply.refuse .notPermitted) := by
  simp only [reactClear, index_val, held]

theorem reactRead_reaction (n : EntryId) :
    reactRead (.reaction n.val) s = (s, Reply.ok false (.reaction (s.reaction n))) := by
  simp only [reactRead, index_val]

theorem reactRead_watch (n : EntryId) : reactRead (.watch n.val) s = (s, Reply.ok false (.watch (s.watch n))) := by
  simp only [reactRead, index_val]

/-- R128, Table 0-5: what names no entry of either kind. -/
theorem reactRead_refused {target : ReadTarget}
    (none : target = .outside ∨ ∃ n, 16 ≤ n ∧ (target = .reaction n ∨ target = .watch n)) :
    reactRead target s = (s, Reply.refuse .badValue) := by
  rcases none with rfl | ⟨n, out, rfl | rfl⟩
  · rfl
  · simp only [reactRead, index_of_le out]
  · simp only [reactRead, index_of_le out]

end Entries

/-- Settles O43: each request is taken, its block answers by the entry that it names, and that entry alone changes. -/
theorem entriesClearedAndRead : Obligations.EntriesClearedAndRead := by
  unfold Obligations.EntriesClearedAndRead
  refine ⟨fun s src i tag h => ?_, fun creator src => ⟨fun n out => placeEntry_out out _,
    fun n tablet held => placeEntry_notPermitted tablet held _, fun n may => placeEntry_named may _,
    fun n empty lowest => placeEntry_lowest empty lowest src, fun taken => placeEntry_full taken _⟩⟩
  have clears {n : Nat} {t : State} {r : Reply}
      (e : watchClear src n (reserved s src i 0x31#8 tag) = (reserved t src i 0x31#8 tag, r)) :
      exec (.watchClear src tag n) s = .next (answered t src i 0x31#8 tag r) :=
    next_congr (serve_answered h .watchClear tag nofun e)
  have drops {n : Nat} {t : State} {r : Reply}
      (e : reactClear src n (reserved s src i 0x33#8 tag) = (reserved t src i 0x33#8 tag, r)) :
      exec (.reactClear src tag n) s = .next (answered t src i 0x33#8 tag r) :=
    next_congr (serve_answered h .reactClear tag nofun e)
  have reads {target : ReadTarget} {r : Reply}
      (e : reactRead target (reserved s src i 0x34#8 tag) = (reserved s src i 0x34#8 tag, r)) :
      exec (.reactRead src tag target) s = .next (answered s src i 0x34#8 tag r) :=
    next_congr (serve_answered h .reactRead tag nofun e)
  refine ⟨fun n => ⟨fun empty => clears (watchClear_empty (by rwa [reserved_watch])),
      fun w held tablet program => clears ?_, fun w held may => clears ?_,
      fun empty => drops (reactClear_empty (by rwa [reserved_reaction])),
      fun r held tablet program => drops ?_, fun r held may => drops ?_, reads ?_, reads ?_⟩,
    fun n out => ⟨clears (watchClear_out out), drops (reactClear_out out),
      reads (reactRead_refused (.inr ⟨n, out, .inl rfl⟩)), reads (reactRead_refused (.inr ⟨n, out, .inr rfl⟩))⟩,
    reads (reactRead_refused (.inl rfl))⟩
  · rw [watchClear_held (by rwa [reserved_watch]), mayRemove_eq_false tablet program]
    rfl
  · rw [watchClear_held (by rwa [reserved_watch]), if_pos ((mayRemove_iff _ _).2 may), reserved_setWatch]
  · rw [reactClear_held (by rwa [reserved_reaction]), mayRemove_eq_false tablet program]
    rfl
  · rw [reactClear_held (by rwa [reserved_reaction]), if_pos ((mayRemove_iff _ _).2 may), reserved_setReaction]
  · rw [reactRead_reaction, reserved_reaction]
  · rw [reactRead_watch, reserved_watch]

end Sys2Proof.Machine

namespace Sys2Proof.Machine

open Sys2Proof.Safety

/-! ### The comparison of a watch (Table 7-1) -/

theorem outOfRange_eq (lo hi x : Int) : outOfRange lo hi x = decide (x < lo ∨ hi < x) := by
  rw [Bool.eq_iff_iff, outOfRange_iff, decide_eq_true_iff]

theorem clampValue_eq (x : Int) : clampValue x = max (-1000000000) (min 1000000000 x) := clampInt_eq (by decide) x

theorem valueClamped_eq (x : Int) : valueClamped x = decide (x < -1000000000 ∨ 1000000000 < x) := outOfRange_eq _ _ x

/-- Table 7-1: a level watch takes its threshold and its hysteresis. -/
theorem checkWatchTest_level (f : WatchFields) :
    let h := max 0 (min 1000000 f.hysteresis)
    let clamped := valueClamped f.threshold || decide (f.hysteresis < 0 ∨ 1000000 < f.hysteresis)
    checkWatchTest .above f = some (.above (clampValue f.threshold), h, clamped) ∧
      checkWatchTest .below f = some (.below (clampValue f.threshold), h, clamped) := by
  simp only [checkWatchTest, clampInt_eq (show (0 : Int) ≤ 1000000 by decide), outOfRange_eq, and_self]

/-- Table 7-1: the band of an OUTSIDE or INSIDE watch may not be crossed once it is clamped. -/
theorem checkWatchTest_crossed {f : WatchFields} (crossed : clampValue f.hi < clampValue f.lo) :
    checkWatchTest .outside f = none ∧ checkWatchTest .inside f = none :=
  ⟨if_pos crossed, if_pos crossed⟩

theorem checkWatchTest_band {f : WatchFields} (band : clampValue f.lo ≤ clampValue f.hi) :
    let h := max 0 (min 1000000 f.hysteresis)
    let clamped := valueClamped f.lo || valueClamped f.hi || decide (f.hysteresis < 0 ∨ 1000000 < f.hysteresis)
    checkWatchTest .outside f = some (.outside (clampValue f.lo) (clampValue f.hi), h, clamped) ∧
      checkWatchTest .inside f = some (.inside (clampValue f.lo) (clampValue f.hi), h, clamped) := by
  simp only [checkWatchTest, if_neg (Int.not_lt.2 band), clampInt_eq (show (0 : Int) ≤ 1000000 by decide),
    outOfRange_eq, and_self]

/-- Table 7-1, log 38: a CHANGE watch takes its delta alone. -/
theorem checkWatchTest_change (f : WatchFields) :
    checkWatchTest .change f =
      some (.change (max 1 (min 2000000000 f.delta)), 0, decide (f.delta < 1 ∨ 2000000000 < f.delta)) := by
  simp only [checkWatchTest, clampInt_eq (show (1 : Int) ≤ 2000000000 by decide), outOfRange_eq]

/-! ### WATCH_SET (R121) -/

section WatchSet

variable {s : State} {src : Source} {f : WatchFields} {ch : ChannelId} {idx : Fin 8} {kind : WatchKind}

/-- R121: the fields that name a place, a value and a comparison. -/
structure WatchNames (f : WatchFields) (ch : ChannelId) (idx : Fin 8) (kind : WatchKind) : Prop where
  entry : entryOk 16 f.entry = true
  channel : f.channel = ch.val
  index : f.index = idx.val
  comparison : f.comparison = .known kind

/-- R121: the value's source is judged before the place and the comparison. -/
theorem watchSet_named (names : WatchNames f ch idx kind) :
    watchSet src f s =
      if (s.channel ch).state = .unmapped then (s, Reply.refuse .noSource)
      else if (s.channel ch).valueCount ≤ idx.val then (s, Reply.refuse .badValue)
      else placeWatch src f ch idx kind s := by
  obtain ⟨entry, channel, index, comparison⟩ := names
  simp only [watchSet, entry, channel, index, comparison, index_val, Coded.get?, if_true]

theorem watchSet_out
    (out : (∃ n, f.entry = .number n ∧ 16 ≤ n) ∨ 16 ≤ f.channel ∨ 8 ≤ f.index ∨ f.comparison = .outside) :
    watchSet src f s = (s, Reply.refuse .badValue) := by
  unfold watchSet
  split
  · next entry =>
    split
    · next channel index known =>
      rcases out with ⟨n, e, out⟩ | out | out | outside
      · rw [e] at entry
        exact absurd (of_decide_eq_true entry) (Nat.not_lt.2 out)
      · rw [index_of_le out] at channel; cases channel
      · rw [index_of_le out] at index; cases index
      · rw [outside] at known; cases known
    · rfl
  · rfl

theorem placeWatch_refused {st : Status}
    (place : placeEntry allEntries (fun n => (s.watch n).map Watch.creator) src f.entry = .refused st) :
    placeWatch src f ch idx kind s = (s, Reply.refuse st) := by
  simp only [placeWatch, place]

section Placed

variable {n : EntryId} (place : placeEntry allEntries (fun n => (s.watch n).map Watch.creator) src f.entry = .at n)
include place

theorem placeWatch_badTest (bad : checkWatchTest kind f = none) :
    placeWatch src f ch idx kind s = (s, Reply.refuse .badValue) := by
  simp only [placeWatch, place, bad]

theorem placeWatch_stores {test : WatchTest} {h : Int} {clamped : Bool}
    (good : checkWatchTest kind f = some (test, h, clamped)) :
    placeWatch src f ch idx kind s =
      (s.setWatch n
        (some
          { channel := ch, index := idx, test := test, hysteresis := h, fireOnLoss := f.fireOnLoss, state := .armed
            reference := none, creator := src, fires := 0 }),
        Reply.ok clamped (.entry n.val)) := by
  simp only [placeWatch, place, good]

end Placed

end WatchSet

/-! ### Triggers and actions (Table 7-3) -/

theorem knownAll_known {α : Type} (xs : List α) : knownAll (xs.map .known) = some xs := by
  induction xs with
  | nil => rfl
  | cons x xs ih => simp only [List.map_cons, knownAll, ih, Option.map_some]

theorem knownAll_outside {α : Type} {xs : List (Coded α)} (outside : .outside ∈ xs) : knownAll xs = none := by
  induction xs with
  | nil => cases outside
  | cons x xs ih =>
    cases x with
    | outside => rfl
    | known a => simp only [knownAll, ih (by simpa using outside), Option.map_none]

theorem resourceOf_motor (m : MotorId) : resourceOf m.val = some (.motor m) := by
  simp only [resourceOf, index_val]

theorem resourceOf_voice (v : VoiceId) : resourceOf (6 + v.val) = some (.voice v) := by
  simp only [resourceOf, index_of_le (Nat.le_add_right 6 v.val), Nat.add_sub_cancel_left, index_val, Option.map_some]

theorem resourceOf_out {n : Nat} (out : 10 ≤ n) : resourceOf n = none := by
  simp only [resourceOf, index_of_le (show 6 ≤ n by omega), index_of_le (show 4 ≤ n - 6 by omega), Option.map_none]

theorem checkTrigger_segmentEnd_out {n : Nat} {reasons : Option (List (Coded EndReason))}
    (out : 6 ≤ n ∨ ∃ rs, reasons = some rs ∧ .outside ∈ rs) : checkTrigger (.segmentEnd n reasons) = none := by
  rcases out with out | ⟨rs, rfl, outside⟩
  · cases reasons <;> simp only [checkTrigger, index_of_le out, Option.map_none]
  · simp only [checkTrigger, knownAll_outside outside]
    cases index 6 n <;> rfl

theorem checkTrigger_chainState_out {n : Nat} {entered : Option (Coded ChainState)}
    (out : 4 ≤ n ∨ entered = some .outside) : checkTrigger (.chainState n entered) = none := by
  rcases out with out | rfl
  · cases entered <;> simp only [checkTrigger, index_of_le out, Option.map_none]
  · simp only [checkTrigger, Coded.get?]
    cases index 4 n <;> rfl

theorem checkAction_halt_out {n : Nat} {a : Coded StopAction} (out : 6 ≤ n ∨ a = .outside) :
    checkAction (.halt n a) = none := by
  rcases out with out | rfl
  · simp only [checkAction, index_of_le out]
  · simp only [checkAction, Coded.get?]
    cases index 6 n <;> rfl

theorem checkAction_play_out {n c : Nat} (out : 4 ≤ n ∨ 64 ≤ c) : checkAction (.play n c) = none := by
  rcases out with out | out
  · simp only [checkAction, index_of_le out]
  · simp only [checkAction, index_of_le out]
    cases index 4 n <;> rfl

/-! ### REACT_SET (R127) -/

section ReactSet

variable {s : State} {src : Source} {f : ReactFields}

theorem reactSet_unchecked
    (bad : checkTrigger f.trigger = none ∨ checkAction f.action = none ∨ f.mode = .outside) :
    reactSet src f s = (s, Reply.refuse .badValue) := by
  unfold reactSet
  split
  · next trigger action mode =>
    rcases bad with bad | bad | bad
    · rw [bad] at trigger; cases trigger
    · rw [bad] at action; cases action
    · rw [bad] at mode; cases mode
  · rfl

variable {trigger : Trigger} {action : Action} {clamped : Bool} {mode : ReactMode}
  (triggers : checkTrigger f.trigger = some trigger) (acts : checkAction f.action = some (action, clamped))
  (repeats : f.mode = .known mode)
include triggers acts repeats

theorem reactSet_refused {st : Status}
    (place : placeEntry allEntries (fun n => (s.reaction n).map Reaction.creator) src f.entry = .refused st) :
    reactSet src f s = (s, Reply.refuse st) := by
  simp only [reactSet, triggers, acts, repeats, Coded.get?, place]

theorem reactSet_stores {n : EntryId}
    (place : placeEntry allEntries (fun n => (s.reaction n).map Reaction.creator) src f.entry = .at n) :
    reactSet src f s =
      (s.setReaction n
        (some
          { trigger := trigger, action := action, mode := mode, enabled := f.enabled, creator := src, fires := 0
            skips := 0 }),
        Reply.ok clamped (.entry n.val)) := by
  simp only [reactSet, triggers, acts, repeats, Coded.get?, place]

end ReactSet

/-- Settles O44: the checks of WATCH_SET and REACT_SET in their order, the record of a request that passes them, and
what the checks of Tables 7-1 and 7-3 take. -/
theorem watchAndReactSet : Obligations.WatchAndReactSet := by
  unfold Obligations.WatchAndReactSet
  have sets {s : State} {src : Source} {i : Fin 8} (h : Accepts s src i) {tag : Byte} {f : WatchFields} {t : State}
      {r : Reply} (e : watchSet src f (reserved s src i 0x30#8 tag) = (reserved t src i 0x30#8 tag, r)) :
      exec (.watchSet src tag f) s = .next (answered t src i 0x30#8 tag r) :=
    next_congr (serve_answered h .watchSet tag nofun e)
  have reacts {s : State} {src : Source} {i : Fin 8} (h : Accepts s src i) {tag : Byte} {f : ReactFields} {t : State}
      {r : Reply} (e : reactSet src f (reserved s src i 0x32#8 tag) = (reserved t src i 0x32#8 tag, r)) :
      exec (.reactSet src tag f) s = .next (answered t src i 0x32#8 tag r) :=
    next_congr (serve_answered h .reactSet tag nofun e)
  refine ⟨fun s src i tag f ch idx kind h entry channel index comparison => ?_,
    fun s src i tag f h out => sets h (watchSet_out out), fun f => ?_,
    fun s src i tag f h => ⟨fun bad => reacts h (reactSet_unchecked bad),
      fun trigger action clamped mode triggers acts repeats =>
        ⟨fun st place => reacts h (reactSet_refused triggers acts repeats (by simpa only [reserved_reaction])),
        fun n place => reacts h ?_⟩⟩, ?_, ?_⟩
  · have named := watchSet_named (s := reserved s src i 0x30#8 tag) (src := src)
      ⟨entry, channel, index, comparison⟩
    rw [reserved_channel] at named
    refine ⟨fun unmapped => sets h (named.trans (if_pos unmapped)),
      fun mapped beyond => sets h (named.trans ((if_neg mapped).trans (if_pos beyond))), fun mapped within => ?_⟩
    have places := named.trans ((if_neg mapped).trans (if_neg (Nat.not_le.2 within)))
    refine ⟨fun st place => sets h (places.trans (placeWatch_refused (by simpa only [reserved_watch]))),
      fun n place => ?_⟩
    have there : placeEntry allEntries
        (fun n => ((reserved s src i 0x30#8 tag).watch n).map Watch.creator) src f.entry = .at n := by
      simpa only [reserved_watch]
    refine ⟨fun bad => sets h (places.trans (placeWatch_badTest there bad)), fun test hy clamped good => sets h ?_⟩
    rw [places, placeWatch_stores there good, reserved_setWatch]
  · intro value far hyst hFar
    have values (x : Int) : clampValue x = value x := clampValue_eq x
    have clamped (x : Int) : valueClamped x = far x := valueClamped_eq x
    simp only [← values, ← clamped]
    exact ⟨(checkWatchTest_level f).1, (checkWatchTest_level f).2, checkWatchTest_crossed, checkWatchTest_band,
      checkWatchTest_change f⟩
  · rw [reactSet_stores triggers acts repeats (by simpa only [reserved_reaction]), reserved_setReaction]
  · refine ⟨fun n => ?_, fun n out => ?_, fun m reasons => ⟨?_, ?_⟩, fun n reasons => checkTrigger_segmentEnd_out,
      fun v => ?_, fun n out => ?_, fun m => ?_, fun v => ?_, fun n out => ?_, fun p st => ⟨?_, ?_⟩,
      fun n x => checkTrigger_chainState_out, rfl⟩
    · simp only [checkTrigger, index_val, Option.map_some]
    · simp only [checkTrigger, index_of_le out, Option.map_none]
    · simp only [checkTrigger, index_val, Option.map_some]
    · simp only [checkTrigger, index_val, knownAll_known]
    · simp only [checkTrigger, index_val, Option.map_some]
    · simp only [checkTrigger, index_of_le out, Option.map_none]
    · simp only [checkTrigger, resourceOf_motor, Option.map_some]
    · simp only [checkTrigger, resourceOf_voice, Option.map_some]
    · simp only [checkTrigger, resourceOf_out out, Option.map_none]
    · simp only [checkTrigger, index_val, Option.map_some]
    · simp only [checkTrigger, index_val, Coded.get?]
  · refine ⟨fun m a => ?_, fun n a => checkAction_halt_out,
      fun m r replace => ⟨fun bad => ?_, fun seg clamped good => ?_⟩, fun n r replace out => ?_, fun v c => ?_,
      fun n c => checkAction_play_out, fun v fade => ?_, fun n fade out => ?_, fun code => rfl, rfl⟩
    · simp only [checkAction, index_val, Coded.get?]
    · simp only [checkAction, index_val, bad]
    · simp only [checkAction, index_val, good]
    · simp only [checkAction, index_of_le out]
    · simp only [checkAction, index_val]
    · simp only [checkAction, index_val, Option.map_some]
    · simp only [checkAction, index_of_le out, Option.map_none]

end Sys2Proof.Machine

namespace Sys2Proof.Machine

open Sys2Proof.Safety

/-! ### The checks of a range of the clip store (R138, R139) -/

theorem mem_offsets {base n a : Nat} : a ∈ offsets base n ↔ base ≤ a ∧ a < base + n := by
  simp only [offsets, List.mem_map, List.mem_range]
  constructor
  · rintro ⟨k, lt, rfl⟩; omega
  · rintro ⟨low, high⟩; exact ⟨a - base, by omega, by omega⟩

section Range

variable {s : State} {src : Source} {base n : Nat}

/-- R136: the range leaves the store. -/
theorem rangeRefusal_outside (out : storeSize < base + n) : rangeRefusal src base n s = some .badValue := by
  unfold rangeRefusal inStore
  rw [if_pos (by simpa using out)]

theorem rangeRefusal_inside (inside : base + n ≤ storeSize) :
    rangeRefusal src base n s = if (offsets base n).all (mayWrite s src) then none else some .denied := by
  unfold rangeRefusal inStore
  rw [if_neg (by simpa using inside)]

/-- R138: a byte of the range that the sender may not write. -/
theorem rangeRefusal_denied (inside : base + n ≤ storeSize)
    (bad : ∃ a, (base ≤ a ∧ a < base + n) ∧ mayWrite s src a = false) :
    rangeRefusal src base n s = some .denied := by
  obtain ⟨a, within, no⟩ := bad
  rw [rangeRefusal_inside inside, if_neg]
  rw [List.all_eq_true]
  exact fun all => nomatch no.symm.trans (all a (mem_offsets.2 within))

theorem rangeRefusal_eq_none :
    rangeRefusal src base n s = none ↔
      base + n ≤ storeSize ∧ ∀ a, base ≤ a ∧ a < base + n → mayWrite s src a = true := by
  rcases Nat.lt_or_ge storeSize (base + n) with out | inside
  · rw [rangeRefusal_outside out]
    exact ⟨nofun, fun ⟨inside, _⟩ => absurd inside (Nat.not_le.2 out)⟩
  · rw [rangeRefusal_inside inside, ite_eq_left_iff]
    simp only [reduceCtorEq, imp_false, not_not, List.all_eq_true, mem_offsets, inside, true_and]

theorem rangeRefusal_reserved (s : State) (src link : Source) (i : Fin 8) (kind tag : Byte) (base n : Nat) :
    rangeRefusal src base n (reserved s link i kind tag) = rangeRefusal src base n s := by
  cases link <;> rfl

end Range

/-! ### STORE_WRITE (R138) -/

section StoreWrite

variable {s : State} {src : Source} {base : Nat} {bytes : List Byte}

theorem writeRefusal_badLength (bad : bytes = [] ∨ 240 < bytes.length) :
    writeRefusal src base bytes s = some .badLength := if_pos bad

section Sized

variable (nonempty : bytes ≠ []) (few : bytes.length ≤ 240)
include nonempty few

/-- R138: what refuses the range comes before the locks, and these before the clips in use. -/
theorem writeRefusal_sized :
    writeRefusal src base bytes s =
      (rangeRefusal src base bytes.length s).orElse fun _ =>
        if (offsets base bytes.length).any (lockedAt s) then some .denied
        else if touchesHeldClip s base bytes.length then some .inUse
        else none := by
  unfold writeRefusal
  rw [if_neg (by simpa [nonempty] using few)]
  cases rangeRefusal src base bytes.length s <;> rfl

theorem writeRefusal_outside (out : storeSize < base + bytes.length) :
    writeRefusal src base bytes s = some .badValue := by
  rw [writeRefusal_sized nonempty few, rangeRefusal_outside out]
  rfl

variable (inside : base + bytes.length ≤ storeSize)
include inside

theorem writeRefusal_denied
    (bad : ∃ a, (base ≤ a ∧ a < base + bytes.length) ∧ (mayWrite s src a = false ∨ lockedAt s a = true)) :
    writeRefusal src base bytes s = some .denied := by
  rw [writeRefusal_sized nonempty few]
  obtain ⟨a, within, closed | locked⟩ := bad
  · rw [rangeRefusal_denied inside ⟨a, within, closed⟩]
    rfl
  · have anyLocked : (offsets base bytes.length).any (lockedAt s) = true :=
      List.any_eq_true.2 ⟨a, mem_offsets.2 within, locked⟩
    rw [if_pos anyLocked, rangeRefusal_inside inside]
    split <;> rfl

variable (free : ∀ a, base ≤ a ∧ a < base + bytes.length → mayWrite s src a = true ∧ lockedAt s a = false)
include free

theorem writeRefusal_free :
    writeRefusal src base bytes s = if touchesHeldClip s base bytes.length then some .inUse else none := by
  have unlocked : ¬(offsets base bytes.length).any (lockedAt s) = true := fun any => by
    obtain ⟨a, within, locked⟩ := List.any_eq_true.1 any
    exact nomatch locked.symm.trans (free a (mem_offsets.1 within)).2
  rw [writeRefusal_sized nonempty few, rangeRefusal_eq_none.2 ⟨inside, fun a within => (free a within).1⟩,
    if_neg unlocked]
  rfl

end Sized

theorem writeRefusal_reserved (s : State) (src link : Source) (i : Fin 8) (kind tag : Byte) (base : Nat)
    (bytes : List Byte) :
    writeRefusal src base bytes (reserved s link i kind tag) = writeRefusal src base bytes s := by
  cases link <;> rfl

/-- R136: an accepted run lies in the store. -/
theorem inStore_of_writeRefusal (accepted : writeRefusal src base bytes s = none) :
    base + bytes.length ≤ storeSize := by
  by_cases bad : bytes = [] ∨ 240 < bytes.length
  · cases (writeRefusal_badLength bad).symm.trans accepted
  · obtain ⟨nonempty, few⟩ := not_or.1 bad
    by_contra out
    cases (writeRefusal_outside nonempty (Nat.not_lt.1 few) (Nat.not_le.1 out)).symm.trans accepted

theorem storeWrite_refused {st : Status} (h : writeRefusal src base bytes s = some st) :
    storeWrite src base bytes s = (s, Reply.refuse st) := by
  unfold storeWrite
  rw [h]

theorem storeWrite_accepted (h : writeRefusal src base bytes s = none) :
    storeWrite src base bytes s = ({ s with store := Store.writeRun s.store base bytes }, Reply.ok false .empty) := by
  unfold storeWrite
  rw [h]

end StoreWrite

end Sys2Proof.Machine

namespace Sys2Proof.Machine

open Sys2Proof.Safety

/-! ### What a block does with a request (R178) -/

/-- The acts of the blocks on the requests of `src`: one constructor for each kind of Table 11-2, with the fields that a
request of that kind carries. -/
inductive ActsOn (src : Source) : RequestKind → (Fin 8 → State → State × Option Reply) → Prop
  | ident : ActsOn src .ident (now identRequest)
  | reset : ActsOn src .reset (now resetRequest)
  | claim (f : ClaimFields) : ActsOn src .claim (now (claimRequest src f))
  | release (set : List Resource) : ActsOn src .release (now (releaseRequest src set))
  | renew (set : List Resource) : ActsOn src .renew (now (renewRequest src set))
  | take (f : ClaimFields) : ActsOn src .take (now (takeRequest f))
  | motorSet (n : Nat) (f : MotorSetFields) : ActsOn src .motorSet (now (motorRequest n src (motorSet f)))
  | motorRead (n : Nat) : ActsOn src .motorRead (now (motorRead n))
  | zero (n : Nat) (x : Word) : ActsOn src .zero (now (motorRequest n src (zeroMotor x)))
  | clearFault (n : Nat) : ActsOn src .clearFault (now (motorRequest n src clearFault))
  | seg (n : Nat) (r : RawSegment) : ActsOn src .seg (now (motorRequest n src (segMotor r)))
  | halt (n : Nat) (a : Coded StopAction) : ActsOn src .halt (now (motorRequest n src (haltMotor a)))
  | budgetSet (x : Int) : ActsOn src .budgetSet (now (budgetSet x))
  | budgetRead : ActsOn src .budgetRead (now fun s => (s, Reply.ok false (.budget (budgetReport s))))
  | chainRestart (port : Nat) (o : Coded RestartOption) : ActsOn src .chainRestart (now (chainRestart port o))
  | chainSet (port : Nat) (f : ChainSetFields) : ActsOn src .chainSet (now (chainSet port f))
  | chainRead (port : Nat) : ActsOn src .chainRead (now (chainRead port))
  | moduleRead (port pos : Nat) : ActsOn src .moduleRead (now (moduleRead port pos))
  | modulePageWrite (port pos page : Nat) (b : PageBytes) :
    ActsOn src .modulePageWrite (pageRequest src port pos page (some b))
  | modulePageRead (port pos page : Nat) : ActsOn src .modulePageRead (pageRequest src port pos page none)
  | mapSet (f : MapFields) : ActsOn src .mapSet (now (mapSet f))
  | mapClear (n : Nat) : ActsOn src .mapClear (now (mapClear n))
  | channelRead (n : Nat) : ActsOn src .channelRead (now (channelRead n))
  | watchSet (f : WatchFields) : ActsOn src .watchSet (now (watchSet src f))
  | watchClear (n : Nat) : ActsOn src .watchClear (now (watchClear src n))
  | reactSet (f : ReactFields) : ActsOn src .reactSet (now (reactSet src f))
  | reactClear (n : Nat) : ActsOn src .reactClear (now (reactClear src n))
  | reactRead (x : ReadTarget) : ActsOn src .reactRead (now (reactRead x))
  | windowSet (f : WindowFields) : ActsOn src .windowSet (now (windowSet f))
  | storeWrite (base : Nat) (bytes : List Byte) : ActsOn src .storeWrite (now (storeWrite src base bytes))
  | storeRead (base count : Nat) : ActsOn src .storeRead (now (storeRead src base count))
  | clipDefine (f : ClipFields) : ActsOn src .clipDefine (now (clipDefine src f))
  | clipRemove (n : Nat) : ActsOn src .clipRemove (now (clipRemove src n))
  | cueSet (f : CueFields) : ActsOn src .cueSet (now (cueSet src f))
  | cueClear (n : Nat) : ActsOn src .cueClear (now (cueClear src n))
  | play (n cue : Nat) : ActsOn src .play (now (voiceRequest n src (playRequest cue)))
  | stop (n : Nat) (o : Coded FadeOption) : ActsOn src .stop (now (voiceRequest n src (stopRequest o)))
  | voiceGain (n : Nat) (x : Int) : ActsOn src .voiceGain (now (voiceRequest n src (voiceGain x)))
  | masterSet (x : Int) : ActsOn src .masterSet (now (masterSet x))
  | subscribe (f : SubscribeFields) : ActsOn src .subscribe (now (subscribe src f))
  | unsubscribe (n : Nat) : ActsOn src .unsubscribe (now (unsubscribe src n))

/-- R178 step 4: what its block does with a complete frame is an act of its kind, with the fields that the body
spells. -/
theorem actsOn_blockAct (k : RequestKind) (src : Source) (b : List Byte) : ActsOn src k (blockAct k src b) := by
  cases k <;> constructor

/-- A request row is served by an act of its kind, with the fields that the row carries. -/
theorem exec_request {c : Instr} {src : Source} {tag : Byte} {k : RequestKind}
    (request : requestOf c = some (src, tag, k)) :
    ∃ act, ActsOn src k act ∧ ∀ s, exec c s = .next (serveLater k src tag act s) := by
  cases c <;> cases request <;> exact ⟨_, by constructor, fun _ => rfl⟩

end Sys2Proof.Machine

namespace Sys2Proof.Machine

open Sys2Proof.Safety

/-! ### What holds of a state through requests and frames (R177, R178) -/

section Frames

variable {P : State → Prop} (links : ∀ s src l, P s → P (s.setLink src l))
include links

theorem serveLater_keeps {act : Fin 8 → State → State × Option Reply} (acts : ∀ i s, P s → P (act i s).1)
    (k : RequestKind) (src : Source) (tag : Byte) {s : State} (h : P s) : P (serveLater k src tag act s) := by
  fun_cases serveLater k src tag act s
  · exact h
  · exact links _ src _ (links s src _ h)
  · next i _ taken _ _ r answers =>
    have held := acts i taken (links s src _ h)
    rw [answers] at held
    exact links _ src _ held
  · next i _ taken _ _ waits =>
    have held := acts i taken (links s src _ h)
    rwa [waits] at held
  · exact h

theorem takeUnknown_keeps (src : Source) (tag kind : Byte) {s : State} (h : P s) : P (takeUnknown src tag kind s) := by
  fun_cases takeUnknown src tag kind s
  · exact h
  · exact links s src _ h
  · exact h

variable (acts : ∀ {src k act}, ActsOn src k act → ∀ i s, P s → P (act i s).1)
include acts

/-- R178: a complete frame is refused, or taken as a request. -/
theorem takeFrame_keeps (src : Source) (kind tag : Byte) (body : List Byte) {s : State} (h : P s) :
    P (takeFrame src kind tag body s) := by
  fun_cases takeFrame src kind tag body s
  · exact takeUnknown_keeps links src tag kind h
  · refine serveLater_keeps links (fun i t held => ?_) _ src tag h
    unfold checkedAct
    split
    · exact acts (actsOn_blockAct _ src body) i t held
    · exact held

theorem assemble_keeps (link : Source) (b : Byte) {s : State} (h : P s) : P (assemble link b s) := by
  have set (rx : Assembler) : P (s.setRx link rx) := links s link _ h
  fun_cases assemble link b s
  · exact set _
  · exact h
  · exact set _
  · exact set _
  · next len got _ _ =>
    fun_cases checkFrame link len got b (s.setRx link .hunting)
    · exact takeFrame_keeps links acts link _ _ _ (set _)
    · exact set _
    · exact set _

end Frames

/-! ### Requests leave the clip store alone, but for STORE_WRITE -/

theorem store_ownerOnly {act : State → State × Reply} (same : ∀ s, (act s).1.store = s.store) (r : Resource)
    (src : Source) (s : State) : (ownerOnly r src act s).1.store = s.store := by
  have restarted (t : State) : (t.restartLease r).store = t.store := State.setClaim_store t r _
  fun_cases ownerOnly r src act s
  · next e _ => exact (restarted _).trans ((congrArg (·.1.store) e).symm.trans (same s))
  · next e _ => exact (congrArg (·.1.store) e).symm.trans (same s)
  · rfl

theorem store_motorRequest {act : MotorId → State → State × Reply} (same : ∀ m s, (act m s).1.store = s.store)
    (n : Nat) (src : Source) (s : State) : (motorRequest n src act s).1.store = s.store := by
  fun_cases motorRequest n src act s
  · rfl
  · exact store_ownerOnly (same _) _ src s

theorem store_voiceRequest {act : VoiceId → State → State × Reply} (same : ∀ v s, (act v s).1.store = s.store)
    (n : Nat) (src : Source) (s : State) : (voiceRequest n src act s).1.store = s.store := by
  fun_cases voiceRequest n src act s
  · rfl
  · exact store_ownerOnly (same _) _ src s

theorem store_periodExpiry (n : SubId) (s : State) : (periodExpiry n s).store = s.store := by
  fun_cases periodExpiry n s <;> rfl

/-- R136, R138: only STORE_WRITE writes the clip store. -/
theorem store_act {src : Source} {k : RequestKind} {act : Fin 8 → State → State × Option Reply}
    (acts : ActsOn src k act) (other : k ≠ .storeWrite) (i : Fin 8) (s : State) : (act i s).1.store = s.store := by
  cases acts with
  | ident => rfl
  | reset => rfl
  | claim f =>
    show (claimRequest src f s).1.store = _
    fun_cases claimRequest src f s
    · rfl
    · rfl
    · exact foldl_keeps (fun t r => State.setClaim_store t r _) _ s
  | release set =>
    show (releaseRequest src set s).1.store = _
    fun_cases releaseRequest src set s
    · rfl
    · exact (quiet_withClaims_foldl (quiet_endClaimsOf src .released) _ s).store
  | renew set =>
    show (renewRequest src set s).1.store = _
    fun_cases renewRequest src set s
    · rfl
    · refine foldl_keeps (fun t r => ?_) _ s
      split
      · exact State.setClaim_store t r _
      · rfl
  | take f =>
    show (takeRequest f s).1.store = _
    fun_cases takeRequest f s
    · rfl
    · exact (quiet_withClaims_foldl (quiet_takeOne _) _ s).store
  | motorSet n f => exact store_motorRequest (fun m t => by fun_cases motorSet f m t <;> rfl) n src s
  | motorRead n => show (motorRead n s).1.store = _; fun_cases motorRead n s <;> rfl
  | zero n x => exact store_motorRequest (fun m t => by fun_cases zeroMotor x m t <;> rfl) n src s
  | clearFault n =>
    refine store_motorRequest (fun m t => ?_) n src s
    fun_cases clearFault m t
    · exact (quiet_enterRest m .idle t).store
    · rfl
  | seg n r => exact store_motorRequest (fun m t => by fun_cases segMotor r m t <;> rfl) n src s
  | halt n a =>
    refine store_motorRequest (fun m t => ?_) n src s
    fun_cases haltMotor a m t
    · rfl
    · exact (quiet_afterEvents (quiet_stopAction m _ _ t)).store
  | budgetSet x =>
    show (setBudget (clampNat 500 8000 x) s).1.store = _
    rcases Nat.lt_or_ge (clampNat 500 8000 x) s.governor.used with exceeded | covers
    · rw [setBudget_exceeded exceeded, scaledDown_frame s]
    · rw [setBudget_covers covers]
  | budgetRead => rfl
  | chainRestart port o => exact (steady_chainRestart port o s).store
  | chainSet port f => exact (steady_chainSet port f s).store
  | chainRead port => show (chainRead port s).1.store = _; fun_cases chainRead port s <;> rfl
  | moduleRead port pos => show (moduleRead port pos s).1.store = _; fun_cases moduleRead port pos s <;> rfl
  | modulePageWrite port pos page b => exact (steady_pageRequest src port pos page (some b) i s).store
  | modulePageRead port pos page => exact (steady_pageRequest src port pos page none i s).store
  | mapSet f =>
    show (mapSet f s).1.store = _
    fun_cases mapSet f s
    case case5 => exact (calm_mapChannel _ _ s).store
    all_goals rfl
  | mapClear n =>
    have cleared (ch : ChannelId) : (clearChannel ch s).store = s.store := (calm_clearChannel ch s).store
    show (mapClear n s).1.store = _
    fun_cases mapClear n s
    case case1 => rfl
    case case2 => rfl
    case case3 => rfl
    case case4 ch _ _ => exact (calm_channelNotice ch .unmapped .cleared s).store
    all_goals
      dsimp only
      exact cleared _
  | channelRead n => show (channelRead n s).1.store = _; fun_cases channelRead n s <;> rfl
  | watchSet f =>
    show (watchSet src f s).1.store = _
    fun_cases watchSet src f s
    case case3 ch idx kind _ _ _ _ _ => fun_cases placeWatch src f ch idx kind s <;> rfl
    all_goals rfl
  | watchClear n => show (watchClear src n s).1.store = _; fun_cases watchClear src n s <;> rfl
  | reactSet f => show (reactSet src f s).1.store = _; fun_cases reactSet src f s <;> rfl
  | reactClear n => show (reactClear src n s).1.store = _; fun_cases reactClear src n s <;> rfl
  | reactRead x => show (reactRead x s).1.store = _; fun_cases reactRead x s <;> rfl
  | windowSet f => show (windowSet f s).1.store = _; fun_cases windowSet f s <;> rfl
  | storeWrite base bytes => exact absurd rfl other
  | storeRead base count => show (storeRead src base count s).1.store = _; fun_cases storeRead src base count s <;> rfl
  | clipDefine f => show (clipDefine src f s).1.store = _; fun_cases clipDefine src f s <;> rfl
  | clipRemove n => show (clipRemove src n s).1.store = _; fun_cases clipRemove src n s <;> rfl
  | cueSet f => show (cueSet src f s).1.store = _; fun_cases cueSet src f s <;> rfl
  | cueClear n => show (cueClear src n s).1.store = _; fun_cases cueClear src n s <;> rfl
  | play n cue =>
    refine store_voiceRequest (fun v t => ?_) n src s
    fun_cases playRequest cue v t
    · rfl
    · rfl
    · exact (quiet_playVoice quiet_react v _ t).store
  | stop n o =>
    refine store_voiceRequest (fun v t => ?_) n src s
    fun_cases stopRequest o v t
    · rfl
    · exact (quiet_stopVoice quiet_react v _ t).store
  | voiceGain n x =>
    refine store_voiceRequest (fun v t => ?_) n src s
    show (ite _ _ _ : State).store = _
    split
    · exact (quiet_retarget v _).store
    · rfl
  | masterSet x => rfl
  | subscribe f =>
    show (subscribe src f s).1.store = _
    fun_cases subscribe src f s
    case case5 n _ _ _ _ _ => exact store_periodExpiry n _
    all_goals rfl
  | unsubscribe n => show (unsubscribe src n s).1.store = _; fun_cases unsubscribe src n s <;> rfl

/-! ### The clip store's invariant through every command (R136) -/

/-- The invariant reads the clip store alone. -/
theorem storeInv_of_store {s t : State} (same : t.store = s.store) (h : StoreInv s) : StoreInv t := by
  unfold StoreInv
  rwa [same]

/-- R136, R138: a run that STORE_WRITE accepts lies in the store, and its writes keep the canonical form. -/
theorem storeInv_storeWrite (src : Source) (base : Nat) (bytes : List Byte) {s : State} (h : StoreInv s) :
    StoreInv (storeWrite src base bytes s).1 := by
  obtain ⟨wf, within⟩ := h
  cases judged : writeRefusal src base bytes s with
  | some st =>
    rw [storeWrite_refused judged]
    exact ⟨wf, within⟩
  | none =>
    have inside := inStore_of_writeRefusal judged
    rw [storeWrite_accepted judged]
    refine ⟨Store.wf_writeRun bytes wf base, fun cell listed => ?_⟩
    rcases Store.mem_writeRun bytes listed with before | ⟨-, last⟩
    · exact within cell before
    · exact Nat.lt_of_lt_of_le last inside

theorem storeInv_act {src : Source} {k : RequestKind} {act : Fin 8 → State → State × Option Reply}
    (acts : ActsOn src k act) (i : Fin 8) (s : State) (h : StoreInv s) : StoreInv (act i s).1 := by
  by_cases write : k = .storeWrite
  · subst write
    cases acts with
    | storeWrite base bytes => exact storeInv_storeWrite src base bytes h
  · exact storeInv_of_store (store_act acts write i s) h

theorem storeInv_setLink (s : State) (src : Source) (l : LinkUnit) (h : StoreInv s) : StoreInv (s.setLink src l) :=
  storeInv_of_store (State.setLink_store s src l) h

theorem store_sendTelemetry (link : Source) (s : State) : (sendTelemetry link s).store = s.store :=
  (State.setLink_store _ link _).trans
    (foldl_keeps (get := State.store) (fun t x => by fun_cases markSent t x <;> rfl) _ s)

theorem store_chooseFrame (link : Source) (s : State) : (chooseFrame link s).store = s.store := by
  fun_cases chooseFrame link s
  · exact State.setLink_store s link _
  · exact store_sendTelemetry link s
  · exact State.setLink_store s link _
  · rfl
  · exact store_sendTelemetry link s

theorem store_started (cause : StartCause) (s : State) : (started cause s).store = s.store :=
  (quiet_placeBoth s _).store

/-- R157: soft reset keeps the clip store. -/
theorem store_softReset (s : State) : (softReset s).store = s.store :=
  (store_started _ _).trans (foldl_keeps (get := State.store) (f := fun t n => freeClip n t) (fun _ _ => rfl) allClips
    { State.reset.withPins s with store := s.store, windows := s.windows, clips := s.clips, cues := s.cues })

theorem store_frameSent (link : Source) (s : State) : (frameSent link s).store = s.store := by
  fun_cases frameSent link s
  · rfl
  · exact (store_softReset _).trans (State.setLink_store s link _)
  · exact State.setLink_store s link _

/-- R166: the fall of LINK_UP leaves the clip store alone. -/
theorem store_linkUpFall (s : State) : (linkUpFall s).store = s.store := by
  have dropped : (tabletDropped s).store = s.store := by rw [sameBesideTables_tabletDropped s]; rfl
  have ended := quiet_withClaims_foldl (quiet_endClaimsOf .tablet .linkDown) allResources (tabletDropped s)
  exact ended.store.trans dropped

theorem store_idle (s : State) : (idle s).store = s.store :=
  calc (idle s).store
    _ = (passChains (passClaims { s with time := s.time + 1 })).store := foldl_keeps (fun _ _ => rfl) allSubs _
    _ = (passClaims { s with time := s.time + 1 }).store := foldl_keeps (fun _ _ => rfl) allPorts _
    _ = s.store := foldl_keeps (fun t r => State.setClaim_store t r _) allResources _

theorem store_expireDuration (m : MotorId) (s : State) : (expireDuration m s).store = s.store := by
  fun_cases expireDuration m s
  · rfl
  · exact ((quiet_modMotor s m _).trans (quiet_afterEvents (quiet_durationExpired m _))).store
  · rfl

theorem store_withClaims (t s : State) : (withClaims t s).store = t.store := rfl

theorem store_endClaim (r : Resource) (reason : ClaimEndReason) (new : Claim) (s : State) :
    (endClaim r reason new s).store = s.store :=
  (store_withClaims _ s).symm.trans (quiet_endClaim r reason new s).store

theorem store_ite {p : Prop} [Decidable p] {s a b : State} (h : a.store = s.store) (k : b.store = s.store) :
    (if p then a else b).store = s.store := by
  split
  · exact h
  · exact k

/-- The events that neither bring a byte of a frame nor are POWER_ON leave the clip store alone. -/
theorem store_event {c : Instr} (event : requestOf c = none) (power : c ≠ .powerOn)
    (byte : ∀ link b, c ≠ .byteReceived link b) (s : State) : ∃ t, exec c s = .next t ∧ t.store = s.store := by
  cases c with
  | powerOn => exact absurd rfl power
  | softReset => exact ⟨_, rfl, store_softReset s⟩
  | linkUpFall => exact ⟨_, rfl, store_ite (store_linkUpFall s) rfl⟩
  | linkUpRise =>
    have up : (linkUpRise s).store = s.store :=
      (quiet_place { s with linkUp := true, tablet := LinkUnit.reset s.tablet } .tablet _).store
    exact ⟨_, rfl, store_ite rfl up⟩
  | readyInChange link high =>
    refine ⟨_, rfl, ?_⟩
    split
    · exact State.setLink_store s link _
    · exact State.setLink_store s link _
  | frameByteTimeout link => exact ⟨_, rfl, State.setLink_store s link _⟩
  | unknownKind src tag kind =>
    exact ⟨_, rfl, store_ite rfl (takeUnknown_keeps (P := fun t => t.store = s.store)
      (fun t link l same => (State.setLink_store t link l).trans same) src tag kind rfl)⟩
  | frameStart link => exact ⟨_, rfl, store_ite (store_chooseFrame link s) rfl⟩
  | frameSent link => exact ⟨_, rfl, store_ite rfl (store_frameSent link s)⟩
  | leaseExpiry r => exact ⟨_, rfl, store_ite (store_endClaim r _ _ s) rfl⟩
  | encoderStep m a b => exact ⟨_, rfl, rfl⟩
  | controlTick m x => exact ⟨_, rfl, (quiet_afterEvents (quiet_controlTick m x s)).store⟩
  | trip m => exact ⟨_, rfl, store_ite (quiet_afterEvents (quiet_takeTrip m s)).store rfl⟩
  | durationExpiry m => exact ⟨_, rfl, store_expireDuration m s⟩
  | stall m => exact ⟨_, rfl, store_ite (quiet_afterEvents (quiet_takeStall m s)).store rfl⟩
  | resetRestExpiry p => exact ⟨_, rfl, (steady_restExpiry p s).store⟩
  | trainRetryTimer p => exact ⟨_, rfl, (steady_trainRetry p s).store⟩
  | emptyProbeTimer p => exact ⟨_, rfl, (steady_probeExpiry p s).store⟩
  | faultRetryTimer p => exact ⟨_, rfl, (steady_faultRetry p s).store⟩
  | syncTimerExpiry p => exact ⟨_, rfl, (steady_syncExpiry p s).store⟩
  | callSent p => exact ⟨_, rfl, (steady_callSent p s).store⟩
  | transactionEnd p a b => exact ⟨_, rfl, (steady_answersHeard p false a b s).store⟩
  | answerTimeout p a b => exact ⟨_, rfl, (steady_answersHeard p true a b s).store⟩
  | missesAbsent p k => exact ⟨_, rfl, (steady_missesAbsent p k s).store⟩
  | settleExpiry p k => exact ⟨_, rfl, (steady_settleExpiry p k s).store⟩
  | staleDeadline ch => exact ⟨_, rfl, store_ite rfl rfl⟩
  | outputSample =>
    obtain ⟨_, quiet⟩ := quiet_outputSample s
    exact ⟨_, rfl, quiet.store⟩
  | periodExpiry n => exact ⟨_, rfl, store_periodExpiry n s⟩
  | byteReceived link b => exact absurd rfl (byte link b)
  | carrierPeriod => exact ⟨_, rfl, rfl⟩
  | _ => cases event

/-- R136: every command keeps the clip store's invariant. -/
theorem exec_storeInv (c : Instr) {s : State} (h : StoreInv s) : ∃ t, exec c s = .next t ∧ StoreInv t := by
  cases request : requestOf c with
  | some row =>
    obtain ⟨src, tag, k⟩ := row
    obtain ⟨act, acts, run⟩ := exec_request request
    exact ⟨_, run s, serveLater_keeps storeInv_setLink (storeInv_act acts) k src tag h⟩
  | none =>
    by_cases power : c = .powerOn
    · subst power
      have empty : (powerOn s).store = State.reset.store := store_started .powerOn (State.reset.withPins s)
      exact ⟨_, rfl, storeInv_of_store empty ⟨rfl, nofun⟩⟩
    · by_cases byte : ∃ link b, c = .byteReceived link b
      · obtain ⟨link, b, rfl⟩ := byte
        refine ⟨_, rfl, ?_⟩
        split
        · exact h
        · exact assemble_keeps storeInv_setLink storeInv_act link b h
      · obtain ⟨t, run, same⟩ := store_event request power (fun link b e => byte ⟨link, b, e⟩) s
        exact ⟨t, run, storeInv_of_store same h⟩

/-- Settles O56: an idle millisecond leaves the clip store alone, and every command keeps its invariant. -/
theorem storeInvKept : Obligations.StoreInvKept := by
  intro s t inv run
  unfold step at run
  split at run
  · cases run
    exact storeInv_of_store (store_idle s) inv
  · next c rest _ =>
    obtain ⟨u, next, kept⟩ := exec_storeInv c (s := { s with pending := rest }) inv
    cases next.symm.trans run
    exact kept

end Sys2Proof.Machine

namespace Sys2Proof.Machine

open Sys2Proof.Safety

/-! ### STORE_WRITE and STORE_READ as they are answered (R138, R139) -/

section Store

variable {s : State} {src : Source} {i : Fin 8} (h : Accepts s src i) (tag : Byte)
include h

theorem exec_storeWrite_refused {base : Nat} {bytes : List Byte} {st : Status}
    (judged : writeRefusal src base bytes s = some st) :
    exec (.storeWrite src tag base bytes) s = .next (answered s src i 0x39#8 tag (Reply.refuse st)) :=
  next_congr (serve_answered h .storeWrite tag nofun
    (storeWrite_refused ((writeRefusal_reserved s src src i _ tag base bytes).trans judged)))

theorem exec_storeWrite_accepted {base : Nat} {bytes : List Byte} (judged : writeRefusal src base bytes s = none) :
    exec (.storeWrite src tag base bytes) s =
      .next
        (answered { s with store := Store.writeRun s.store base bytes } src i 0x39#8 tag (Reply.ok false .empty)) := by
  refine next_congr (serve_answered h .storeWrite tag nofun ?_)
  rw [storeWrite_accepted ((writeRefusal_reserved s src src i _ tag base bytes).trans judged)]
  cases src <;> rfl

theorem exec_storeRead_badCount {base count : Nat} (bad : count = 0 ∨ 240 < count) :
    exec (.storeRead src tag base count) s = .next (answered s src i 0x3A#8 tag (Reply.refuse .badValue)) :=
  next_congr (serve_unchanged h (k := .storeRead) rfl tag fun _ _ => if_pos bad)

variable {base count : Nat} (least : 1 ≤ count) (few : count ≤ 240)
include least few

theorem exec_storeRead_refused {st : Status} (judged : rangeRefusal src base count s = some st) :
    exec (.storeRead src tag base count) s = .next (answered s src i 0x3A#8 tag (Reply.refuse st)) := by
  refine next_congr (serve_unchanged h (k := .storeRead) rfl tag fun t e => ?_)
  subst e
  unfold storeRead
  rw [if_neg (by omega), rangeRefusal_reserved, judged]

theorem exec_storeRead_bytes (judged : rangeRefusal src base count s = none) :
    exec (.storeRead src tag base count) s =
      .next (answered s src i 0x3A#8 tag (Reply.ok false (.bytes (Store.readRun s.store base count)))) := by
  refine next_congr (serve_unchanged h (k := .storeRead) rfl tag fun t e => ?_)
  subst e
  unfold storeRead
  rw [if_neg (by omega), rangeRefusal_reserved, judged, reserved_store]

end Store

/-- Settles O47: a write that no check refuses, by what a run of writes leaves at each offset; and the checks of
STORE_WRITE in their order. -/
theorem storeWriteReadsBack : Obligations.StoreWriteReadsBack := by
  unfold Obligations.StoreWriteReadsBack
  refine ⟨fun s src i tag base bytes h wf nonempty few inside free unheld => ?_, fun s src i tag base bytes h => ?_⟩
  · have judged : writeRefusal src base bytes s = none := by
      rw [writeRefusal_free nonempty few inside fun a within => free a within.1 within.2, ite_eq_right_iff]
      intro touches
      obtain ⟨k, c, a, clip, used, low, high, within⟩ := (touchesHeldClip_iff s base bytes.length).1 touches
      exact absurd within (unheld k c a clip used low high)
    exact ⟨{ s with store := Store.writeRun s.store base bytes }, exec_storeWrite_accepted h tag judged,
      Store.read_writeRun bytes wf base, Store.wf_writeRun bytes wf base, rfl⟩
  · intro refused inRange
    refine ⟨fun bad => exec_storeWrite_refused h tag (writeRefusal_badLength bad), fun nonempty few =>
      ⟨fun out => exec_storeWrite_refused h tag (writeRefusal_outside nonempty few out), fun inside =>
        ⟨fun bad => exec_storeWrite_refused h tag (writeRefusal_denied nonempty few inside bad), fun free held => ?_⟩⟩⟩
    refine exec_storeWrite_refused h tag ?_
    rw [writeRefusal_free nonempty few inside free, if_pos ((touchesHeldClip_iff s base bytes.length).2 held)]

/-- Settles O48: STORE_READ by its count, by what refuses its range, and by the bytes of a run of reads. -/
theorem storeReadAnswersBytes : Obligations.StoreReadAnswersBytes := by
  unfold Obligations.StoreReadAnswersBytes
  intro s src i tag base count h answer inRange
  refine ⟨exec_storeRead_badCount h tag, fun least few =>
    ⟨fun out => exec_storeRead_refused h tag least few (rangeRefusal_outside out), fun inside =>
      ⟨fun bad => exec_storeRead_refused h tag least few (rangeRefusal_denied inside bad), fun may => ?_⟩⟩⟩
  rw [← Store.readRun_eq]
  exact exec_storeRead_bytes h tag least few (rangeRefusal_eq_none.2 ⟨inside, may⟩)

end Sys2Proof.Machine

namespace Sys2Proof.Machine

open Sys2Proof.Safety

/-! ### The window an offset belongs to (R137) -/

theorem Window.covers_iff (w : Window) (a : Nat) :
    Window.covers w a = true ↔ w.valid = true ∧ w.base ≤ a ∧ a < w.base + w.size := by
  simp [Window.covers, and_assoc]

theorem mem_windows {s : State} {w : Window} : w ∈ s.windows.toList ↔ ∃ n : WindowId, s.windows[n] = w := by
  rw [Vector.mem_toList_iff, Vector.mem_iff_getElem]
  exact ⟨fun ⟨n, lt, e⟩ => ⟨⟨n, lt⟩, e⟩, fun ⟨n, e⟩ => ⟨n.val, n.isLt, e⟩⟩

theorem windowAt_eq_none {s : State} {a : Nat} (h : ∀ n : WindowId, ¬Window.covers s.windows[n] a = true) :
    windowAt s a = none := by
  refine List.find?_eq_none.2 fun w listed => ?_
  obtain ⟨n, rfl⟩ := mem_windows.1 listed
  exact h n

/-- R137: an offset belongs to the lowest-numbered valid window that covers it. -/
theorem windowAt_eq_some {s : State} {a : Nat} {n : WindowId} (covers : Window.covers s.windows[n] a = true)
    (lowest : ∀ k, k < n → ¬Window.covers s.windows[k] a = true) : windowAt s a = some s.windows[n] := by
  refine List.find?_eq_some_iff_getElem.2 ⟨covers, n.val, by simp, by simp, fun k lt => ?_⟩
  have before := lowest ⟨k, lt.trans n.isLt⟩ lt
  simpa using before

theorem lockedAt_iff (s : State) (a : Nat) :
    lockedAt s a = true ↔ ∃ n : WindowId, Window.covers s.windows[n] a = true ∧ s.windows[n].locked = true := by
  simp only [lockedAt, List.any_eq_true, mem_windows, Bool.and_eq_true]
  exact ⟨fun ⟨_, ⟨n, e⟩, both⟩ => ⟨n, e ▸ both⟩, fun ⟨n, both⟩ => ⟨_, ⟨n, rfl⟩, both⟩⟩

theorem mayWrite_of_windowAt {s : State} {a : Nat} {w : Window} (h : windowAt s a = some w) (src : Source) :
    mayWrite s src a = Window.grants w src := by
  unfold mayWrite
  rw [h]

theorem mayPlay_of_windowAt {s : State} {a : Nat} {w : Window} (h : windowAt s a = some w) :
    mayPlay s a = w.playable := by
  unfold mayPlay
  rw [h]

theorem no_right_of_windowAt {s : State} {a : Nat} (h : windowAt s a = none) (src : Source) :
    mayWrite s src a = false ∧ mayPlay s a = false := by
  unfold mayWrite mayPlay
  rw [h]
  exact ⟨rfl, rfl⟩

/-! ### WINDOW_SET (R137) -/

/-- R137 step 3: what a valid window must be. -/
theorem windowRangeOk_iff (f : WindowFields) :
    windowRangeOk f = true ↔
      f.size ∈ [4096, 8192, 16384, 32768, 65536, 131072, 262144] ∧ f.base % f.size = 0 ∧ f.base + f.size ≤ 262144 := by
  simp only [windowRangeOk, windowSizes, Bool.and_eq_true, List.contains_iff_mem, decide_eq_true_eq, and_assoc]
  rfl

/-- R137: a definition that the request may give. -/
def WindowOk (f : WindowFields) : Prop :=
  (f.valid = true → windowRangeOk f = true) ∧ (f.locked = true → f.valid = true)

theorem windowOk_iff (f : WindowFields) :
    ((f.valid && !windowRangeOk f) || (f.locked && !f.valid)) = false ↔ WindowOk f := by
  unfold WindowOk
  cases f.valid <;> cases f.locked <;> cases windowRangeOk f <;> decide

section WindowSet

variable {s : State} {f : WindowFields}

theorem windowSet_out (out : 4 ≤ f.window) : windowSet f s = (s, Reply.refuse .badValue) := by
  unfold windowSet
  rw [index_of_le out]

/-- R137: the checks of WINDOW_SET on a window, in their order. -/
theorem windowSet_named {n : WindowId} (named : f.window = n.val) :
    windowSet f s =
      if f.otherRight then (s, Reply.refuse .badValue)
      else if s.windows[n].locked then (s, Reply.refuse .denied)
      else if (f.valid && !windowRangeOk f) || (f.locked && !f.valid) then (s, Reply.refuse .badValue)
      else
        ({ s with windows := s.windows.set n (windowOf f) },
          Reply.ok false (.windows (s.windows.set n (windowOf f)).toList)) := by
  unfold windowSet
  rw [named, index_val]

end WindowSet

/-- Settles O46: the checks of WINDOW_SET in their order, and the rights of an offset by the windows that cover it. -/
theorem windowSetDefinesWindow : Obligations.WindowSetDefinesWindow := by
  unfold Obligations.WindowSetDefinesWindow
  refine ⟨fun s i tag f h => ?_, fun s src a => ?_⟩
  · intro refused
    have answers {t : State} {r : Reply}
        (e : windowSet f (reserved s .program i 0x38#8 tag) = (reserved t .program i 0x38#8 tag, r)) :
        exec (.windowSet .program tag f) s = .next (answered t .program i 0x38#8 tag r) :=
      next_congr (serve_answered h .windowSet tag (fun _ => rfl) e)
    refine ⟨fun out => answers (windowSet_out out), fun n named => ?_⟩
    have judged := windowSet_named (s := reserved s .program i 0x38#8 tag) named
    rw [reserved_windows] at judged
    intro sizeOk ok
    have ok_iff : ok ↔ WindowOk f := by
      unfold WindowOk
      rw [windowRangeOk_iff]
    refine ⟨fun other => answers (judged.trans (if_pos other)), fun right locked => ?_, fun right free bad => ?_,
      fun right free good => ?_⟩
    · exact answers (judged.trans ((if_neg (ne_true_of_eq_false right)).trans (if_pos locked)))
    · rw [ok_iff, ← windowOk_iff, Bool.not_eq_false] at bad
      rw [if_neg (ne_true_of_eq_false right), if_neg (ne_true_of_eq_false free), if_pos bad] at judged
      exact answers judged
    · rw [ok_iff, ← windowOk_iff, ← Bool.not_eq_true] at good
      rw [if_neg (ne_true_of_eq_false right), if_neg (ne_true_of_eq_false free), if_neg good] at judged
      exact answers judged
  · intro covers
    have covers_iff (n : WindowId) : Window.covers s.windows[n] a = true ↔ covers n := Window.covers_iff _ a
    simp only [← covers_iff]
    refine ⟨fun none => no_right_of_windowAt (windowAt_eq_none none) src, fun n covered lowest => ?_,
      lockedAt_iff s a⟩
    have window := windowAt_eq_some covered lowest
    exact ⟨mayWrite_of_windowAt window .program, mayWrite_of_windowAt window .tablet, mayPlay_of_windowAt window⟩

end Sys2Proof.Machine

namespace Sys2Proof.Machine

open Sys2Proof.Safety

/-! ### CLIP_DEFINE and CLIP_REMOVE (R140, R141) -/

/-- R140 step 2: a clip holds a byte at least, whole samples alone, and lies in the store. -/
theorem clipRangeOk_iff (f : ClipFields) (format : ClipFormat) :
    clipRangeOk f format = true ↔
      f.length ≠ 0 ∧ (format = .pcm16At16k → f.length % 2 = 0) ∧ f.base + f.length ≤ 262144 := by
  have even : (!(decide (format = .pcm16At16k) && decide (f.length % 2 = 1))) = true ↔
      (format = .pcm16At16k → f.length % 2 = 0) := by
    simp [imp_iff_not_or]
  simp only [clipRangeOk, inStore, Bool.and_eq_true, even, decide_eq_true_eq, and_assoc]
  rfl

theorem clipHeld_iff (s : State) (n : ClipId) : clipHeld s n = true ↔ ∃ c, s.clip n = some c ∧ 0 < c.inUse := by
  unfold clipHeld
  cases s.clip n <;> simp

section Clips

variable {s : State} {src : Source}

section Define

variable {f : ClipFields}

theorem clipDefine_badValue
    (bad : entryOk 48 f.entry = false ∨ ∀ format, f.format = .known format → clipRangeOk f format = false) :
    clipDefine src f s = (s, Reply.refuse .badValue) := by
  unfold clipDefine
  split
  · next format entry known =>
    have named : f.format = .known format := by
      revert known
      cases f.format <;> simp [Coded.get?]
    rcases bad with bad | bad
    · exact nomatch bad.symm.trans entry
    · exact if_neg (ne_true_of_eq_false (bad format named))
  · rfl

variable {format : ClipFormat} (known : f.format = .known format) (entry : entryOk 48 f.entry = true)
  (range : clipRangeOk f format = true)
include known entry range

theorem clipDefine_refused {st : Status}
    (place : placeEntry allClips (fun n => (s.clip n).map Clip.creator) src f.entry = .refused st) :
    clipDefine src f s = (s, Reply.refuse st) := by
  simp only [clipDefine, entry, known, Coded.get?, range, place, if_true]

theorem clipDefine_placed {n : ClipId}
    (place : placeEntry allClips (fun n => (s.clip n).map Clip.creator) src f.entry = .at n) :
    clipDefine src f s =
      if clipHeld s n then (s, Reply.refuse .inUse)
      else
        (s.setClip n (some { base := f.base, length := f.length, format := format, creator := src, inUse := 0 }),
          Reply.ok false (.entry n.val)) := by
  simp only [clipDefine, entry, known, Coded.get?, range, place, if_true]

end Define

theorem clipRemove_out {n : Nat} (out : 48 ≤ n) : clipRemove src n s = (s, Reply.refuse .badValue) := by
  simp only [clipRemove, index_of_le out]

theorem clipRemove_empty {n : ClipId} (empty : s.clip n = none) :
    clipRemove src n.val s = (s, Reply.ok false .empty) := by
  simp only [clipRemove, index_val, empty]

/-- R141, R167: the permission is judged before the use. -/
theorem clipRemove_held {n : ClipId} {c : Clip} (held : s.clip n = some c) :
    clipRemove src n.val s =
      if !mayRemove src c.creator then (s, Reply.refuse .notPermitted)
      else if 0 < c.inUse then (s, Reply.refuse .inUse)
      else (s.setClip n none, Reply.ok false .empty) := by
  simp only [clipRemove, index_val, held]

end Clips

/-! ### CUE_SET and CUE_CLEAR (R142, R143) -/

section Cues

variable {s : State} {src : Source}

section Set

variable {f : CueFields}

theorem cueSet_badValue (bad : entryOk 64 f.entry = false ∨ checkCueBody f.body = none ∨ checkNext f.next = none) :
    cueSet src f s = (s, Reply.refuse .badValue) := by
  unfold cueSet
  split
  · next entry body next =>
    rcases bad with bad | bad | bad
    · exact nomatch bad.symm.trans entry
    · exact nomatch bad.symm.trans body
    · exact nomatch bad.symm.trans next
  · rfl

variable {body : CueBody} {clamped : Bool} {next : NextCue} (entry : entryOk 64 f.entry = true)
  (checked : checkCueBody f.body = some (body, clamped)) (follows : checkNext f.next = some next)
include entry checked follows

theorem cueSet_refused {st : Status}
    (place : placeEntry allCues (fun n => (s.cue n).map Cue.creator) src f.entry = .refused st) :
    cueSet src f s = (s, Reply.refuse st) := by
  simp only [cueSet, entry, checked, follows, place]

theorem cueSet_placed {n : CueId}
    (place : placeEntry allCues (fun n => (s.cue n).map Cue.creator) src f.entry = .at n) :
    cueSet src f s =
      (s.setCue n (some { body := body, next := next, creator := src }), Reply.ok clamped (.entry n.val)) := by
  simp only [cueSet, entry, checked, follows, place]

end Set

theorem cueClear_out {n : Nat} (out : 64 ≤ n) : cueClear src n s = (s, Reply.refuse .badValue) := by
  simp only [cueClear, index_of_le out]

theorem cueClear_empty {n : CueId} (empty : s.cue n = none) :
    cueClear src n.val s = (s, Reply.ok false .empty) := by
  simp only [cueClear, index_val, empty]

theorem cueClear_held {n : CueId} {c : Cue} (held : s.cue n = some c) :
    cueClear src n.val s =
      if mayRemove src c.creator then (s.setCue n none, Reply.ok false .empty)
      else (s, Reply.refuse .notPermitted) := by
  simp only [cueClear, index_val, held]

end Cues

/-- R142, Table 8-3: the fields of a cue that are clamped. -/
theorem clampNat_frequency (x : Int) : clampNat 20 8000 x = (max 20 (min 8000 x)).toNat :=
  congrArg Int.toNat (clampInt_eq (by decide) x)

theorem clampNat_cueDuration (x : Int) : clampNat 1 60000 x = (max 1 (min 60000 x)).toNat :=
  congrArg Int.toNat (clampInt_eq (by decide) x)

theorem entryOk_of_out {k : Nat} {e : RawEntry} (out : ∃ n, e = .number n ∧ k ≤ n) : entryOk k e = false := by
  obtain ⟨n, rfl, le⟩ := out
  exact decide_eq_false (Nat.not_lt.2 le)

/-- Settles O49: CLIP_DEFINE and CUE_SET by their checks and their placing, and the checks of a cue by its kind. -/
theorem clipsAndCuesAreSet : Obligations.ClipsAndCuesAreSet := by
  unfold Obligations.ClipsAndCuesAreSet
  refine ⟨fun s src i tag h => ?_, ?_⟩
  · have defines {f : ClipFields} {t : State} {r : Reply}
        (e : clipDefine src f (reserved s src i 0x3B#8 tag) = (reserved t src i 0x3B#8 tag, r)) :
        exec (.clipDefine src tag f) s = .next (answered t src i 0x3B#8 tag r) :=
      next_congr (serve_answered h .clipDefine tag nofun e)
    have sets {f : CueFields} {t : State} {r : Reply}
        (e : cueSet src f (reserved s src i 0x3D#8 tag) = (reserved t src i 0x3D#8 tag, r)) :
        exec (.cueSet src tag f) s = .next (answered t src i 0x3D#8 tag r) :=
      next_congr (serve_answered h .cueSet tag nofun e)
    refine ⟨fun f format n known entry some whole inside place => ?_,
      fun f format st known entry some whole inside place => ?_, fun f format known bad => ?_, fun f bad => ?_,
      fun f body clamped next entry checked follows => ⟨fun n place => sets ?_, fun st place => sets ?_⟩,
      fun f bad => sets (cueSet_badValue ?_)⟩
    · have placed := clipDefine_placed (s := reserved s src i 0x3B#8 tag) known entry
        ((clipRangeOk_iff f format).2 ⟨some, whole, inside⟩) (by simpa only [reserved_clip])
      refine ⟨fun held => defines (placed.trans (if_pos ?_)), fun free => defines (placed.trans ?_)⟩
      · rwa [clipHeld_iff, reserved_clip]
      · rw [if_neg, reserved_setClip]
        rw [clipHeld_iff, reserved_clip]
        exact fun ⟨c, clip, used⟩ => absurd (free c clip) (Nat.ne_of_gt used)
    · exact defines (clipDefine_refused known entry ((clipRangeOk_iff f format).2 ⟨some, whole, inside⟩)
        (by simpa only [reserved_clip]))
    · refine defines (clipDefine_badValue (.inr fun other same => ?_))
      cases known.symm.trans same
      rw [← Bool.not_eq_true, clipRangeOk_iff]
      rintro ⟨some, whole, inside⟩
      rcases bad with none | ⟨wide, odd⟩ | out
      · exact some none
      · exact absurd (whole wide) (by omega)
      · omega
    · rcases bad with outside | out
      · exact defines (clipDefine_badValue (.inr fun format known => nomatch outside.symm.trans known))
      · exact defines (clipDefine_badValue (.inl (entryOk_of_out out)))
    · rw [cueSet_placed entry checked follows (by simpa only [reserved_cue]), reserved_setCue]
    · exact cueSet_refused entry checked follows (by simpa only [reserved_cue])
    · rcases bad with body | next | out
      · exact .inr (.inl body)
      · exact .inr (.inr next)
      · exact .inl (entryOk_of_out out)
  · intro level loud length long
    have levelIs (x : Int) : clampNat 0 1024 x = level x := clampNat_level x
    have loudIs (x : Int) : outOfRange 0 1024 x = loud x := outOfRange_eq 0 1024 x
    have lengthIs (x : Int) : clampNat 1 60000 x = length x := clampNat_cueDuration x
    have longIs (x : Int) : outOfRange 1 60000 x = long x := outOfRange_eq 1 60000 x
    simp only [checkCueBody, checkNext, index_val, Coded.get?, levelIs, loudIs, lengthIs, longIs, clampNat_frequency,
      outOfRange_eq 20 8000, Option.map_some, implies_true, and_true, true_and]
    refine ⟨fun c start len rep gain => ⟨fun first size => if_pos ⟨first, size⟩, fun bad => if_neg (by omega)⟩,
      fun n start len rep gain out => ?_, fun n out => ?_⟩
    · rw [index_of_le out]
    · rw [index_of_le out, Option.map_none]

/-- Settles O50: CLIP_REMOVE and CUE_CLEAR by what their entry holds, and by whether the sender may remove it. -/
theorem clipsAndCuesAreRemoved : Obligations.ClipsAndCuesAreRemoved := by
  unfold Obligations.ClipsAndCuesAreRemoved
  intro s src i tag h
  have removes {n : Nat} {t : State} {r : Reply}
      (e : clipRemove src n (reserved s src i 0x3C#8 tag) = (reserved t src i 0x3C#8 tag, r)) :
      exec (.clipRemove src tag n) s = .next (answered t src i 0x3C#8 tag r) :=
    next_congr (serve_answered h .clipRemove tag nofun e)
  have clears {n : Nat} {t : State} {r : Reply}
      (e : cueClear src n (reserved s src i 0x3E#8 tag) = (reserved t src i 0x3E#8 tag, r)) :
      exec (.cueClear src tag n) s = .next (answered t src i 0x3E#8 tag r) :=
    next_congr (serve_answered h .cueClear tag nofun e)
  refine ⟨fun n => ⟨fun empty => removes (clipRemove_empty (by rwa [reserved_clip])), fun c held => ?_⟩,
    fun n => ⟨fun empty => clears (cueClear_empty (by rwa [reserved_cue])), fun c held => ?_⟩,
    fun n out => removes (clipRemove_out out), fun n out => clears (cueClear_out out)⟩
  · have judged := clipRemove_held (s := reserved s src i 0x3C#8 tag) (src := src)
      (by rwa [reserved_clip] : (reserved s src i 0x3C#8 tag).clip n = some c)
    refine ⟨fun tablet program => removes (judged.trans ?_), fun may used => removes (judged.trans ?_),
      fun may free => removes (judged.trans ?_)⟩
    · rw [mayRemove_eq_false tablet program]
      rfl
    · rw [(mayRemove_iff _ _).2 may, if_pos used]
      rfl
    · rw [(mayRemove_iff _ _).2 may, if_neg (by omega : ¬0 < c.inUse), reserved_setClip]
      rfl
  · have judged := cueClear_held (s := reserved s src i 0x3E#8 tag) (src := src)
      (by rwa [reserved_cue] : (reserved s src i 0x3E#8 tag).cue n = some c)
    refine ⟨fun tablet program => clears (judged.trans ?_), fun may => clears (judged.trans ?_)⟩
    · rw [mayRemove_eq_false tablet program]
      rfl
    · rw [if_pos ((mayRemove_iff _ _).2 may), reserved_setCue]

end Sys2Proof.Machine

namespace Sys2Proof.Machine

open Sys2Proof.Safety

/-! ### STOP (R147, R148, R150) -/

theorem stopNow_idle {v : VoiceId} {s : State} (h : (s.voice v).state = .idle) (emit : Event → State → State) :
    stopNow emit v s = s := if_pos h

/-- R147, R150: STOP with NOW ends a voice that is not IDLE, on its owner's link. -/
theorem stopNow_ends {v : VoiceId} {s : State} (h : (s.voice v).state ≠ .idle) (emit : Event → State → State) :
    stopNow emit v s =
      emit (.voiceEnd v .stopped)
        ((closeVoice v .stopped (s.ownerLink (.voice v)) s).1.place (s.ownerLink (.voice v))
          (.voiceEnd v .stopped (s.voice v).cueEntry (heldClip (s.voice v)) s.time)) := by
  unfold stopNow
  dsimp only
  rw [if_neg h]
  unfold reportVoice endVoice
  rw [(quiet_closeVoice v .stopped (s.ownerLink (.voice v)) s).time]
  rfl

/-- R147, log 9: STOP of a voice with the reactions that follow. -/
theorem exec_stop {s : State} {src : Source} {i : Fin 8} (h : Accepts s src i) (tag : Byte) {v : VoiceId}
    (own : s.owner (.voice v) = some src) (o : FadeOption) {u : State}
    (stops : stopVoice react v (decide (o = .fade)) (reserved s src i 0x40#8 tag) = u) :
    exec (.stop src tag v.val (.known o)) s =
      .next ((u.restartLease (.voice v)).post src i (Reply.ok false (.voiceState (u.voice v).state))) := by
  refine next_congr (serve_voice_owned h (k := .stop) rfl tag own ?_)
  subst stops
  rfl

/-- Settles O52: STOP by the state of its voice and by its option, a fade-stop by the state and the gain, and the end of
a voice by what it releases and reports. -/
theorem stopEndsOrFades : Obligations.StopEndsOrFades := by
  unfold Obligations.StopEndsOrFades
  refine ⟨fun s src i tag v h own => ?_, fun s v reason => ?_, fun s v reason link => ?_⟩
  · intro vo r stops ended now
    have voice : r.voice v = vo := reserved_voice s src i 0x40#8 tag v
    have time : r.time = s.time := reserved_time s src i 0x40#8 tag
    have link : r.ownerLink (.voice v) = src := by
      rw [State.ownerLink, show r.owner (.voice v) = some src from (reserved_owner ..).trans own]
      rfl
    refine ⟨?_, fun o idle => ?_, fun sounds => ?_, ?_, fun fading => ?_, fun playing silent => ?_,
      fun playing loud => ?_⟩
    · exact next_congr (serve_voice_refused h (k := .stop) rfl tag own (by decide) fun _ _ => rfl)
    · refine exec_stop h tag own o ?_
      cases o with
      | now => exact stopNow_idle (by rw [voice, idle]) react
      | fade => exact fadeStop_of_ne (by rw [voice, idle]; decide) react .stopped
    · refine exec_stop h tag own .now ((stopNow_ends (by rwa [voice]) react).trans ?_)
      rw [voice, link, time]
    · exact ((quiet_closeVoice v .stopped src r).trans (quiet_place _ src _)).trans (quiet_react _ _)
    · exact exec_stop h tag own .fade (fadeStop_of_ne (by rw [voice, fading]; decide) react .stopped)
    · refine exec_stop h tag own .fade
        ((fadeStop_silent (by rwa [voice]) (by rwa [voice]) react .stopped).trans ?_)
      rw [voice, link, time]
    · refine exec_stop h tag own .fade
        ((fadeStop_sounding (by rwa [voice]) (by rwa [voice]) react .stopped).trans ?_)
      rw [voice, link]
  · intro vo link
    exact ⟨fun still => fadeStop_of_ne still react reason,
      fun playing silent => fadeStop_silent playing silent react reason,
      fun playing loud => fadeStop_sounding playing loud react reason⟩
  · intro vo released
    exact ⟨closeVoice_eq v reason link s, releaseClip_eq v s, clip_releaseClip v s, heldClip_eq_some vo,
      fun _ => rfl, Governor.supply_setSupply_self s.governor (.voice v) ⟨0, 0⟩⟩

end Sys2Proof.Machine

namespace Sys2Proof.Machine

open Sys2Proof.Safety

/-! ### POWER_ON and SOFT_RESET (R157, R184) -/

/-- R180: a notice placed on a link unit that has been reset. -/
theorem place_reset {s : State} {link : Source} {l : LinkUnit} (reset : s.link link = LinkUnit.reset l)
    (sends : Sends s link) (b : NoticeBody) :
    s.place link b = s.setLink link { LinkUnit.reset l with notices := [⟨false, b⟩] } := by
  rw [place_sends sends, reset]
  rfl

/-- R184: STARTED on link units that have been reset: on the program link, and on the tablet link while LINK_UP is
high. -/
theorem started_reset {s : State} {p t : LinkUnit} (program : s.link .program = LinkUnit.reset p)
    (tablet : s.link .tablet = LinkUnit.reset t) (cause : StartCause) :
    started cause s =
      { s with
        program := { LinkUnit.reset p with notices := [⟨false, .started cause s.time⟩] }
        tablet :=
          if s.linkUp then { LinkUnit.reset t with notices := [⟨false, .started cause s.time⟩] }
          else LinkUnit.reset t } := by
  unfold started State.placeBoth
  rw [place_reset program nofun]
  by_cases up : s.linkUp = true
  · rw [if_pos up]
    refine (place_reset (l := t) ?_ ?_ _).trans ?_
    · exact tablet
    · exact fun _ => up
    · rfl
  · rw [if_neg up, ← tablet]
    exact place_silent ⟨rfl, Bool.not_eq_true _ ▸ up⟩ _

theorem mem_allClips (n : ClipId) : n ∈ allClips := by revert n; decide
theorem nodup_allClips : allClips.Nodup := by decide

theorem clip_freeClip (t : State) (i j : ClipId) :
    (freeClip i t).clip j = if i = j then (t.clip i).map fun c => { c with inUse := 0 } else t.clip j := by
  by_cases e : i = j
  · subst e
    rw [if_pos rfl]
    exact State.clip_setClip_self t i _
  · rw [if_neg e]
    exact State.clip_setClip_ne t _ e

/-- R157: the clip directory after soft reset, with no clip in use. -/
theorem clip_withSounds (s now : State) (n : ClipId) :
    (s.withSounds now).clip n = (now.clip n).map fun c => { c with inUse := 0 } := by
  unfold State.withSounds
  rw [foldl_pointwise (get := State.clip) (g := fun _ x => x.map fun c => { c with inUse := 0 }) clip_freeClip
    nodup_allClips, if_pos (mem_allClips n)]
  rfl

/-- R157: beside the sounds nothing is kept. -/
theorem withSounds_frame (s now : State) :
    s.withSounds now =
      { s with store := now.store, windows := now.windows, clips := (s.withSounds now).clips, cues := now.cues } := by
  unfold State.withSounds
  exact List.foldlRecOn allClips (fun t n => freeClip n t)
    (b := { s with store := now.store, windows := now.windows, clips := now.clips, cues := now.cues })
    (motive := fun t : State =>
      t = { s with store := now.store, windows := now.windows, clips := t.clips, cues := now.cues })
    rfl fun _ same n _ => (congrArg (freeClip n) same).trans rfl

/-- R157, R183, R184: soft reset, with the clip directory that it keeps. -/
theorem softReset_eq (s : State) :
    softReset s =
      { State.reset with
        linkUp := s.linkUp, encoder := s.encoder, pwm := s.pwm, aout := s.aout, pending := s.pending
        store := s.store, windows := s.windows, clips := ((State.reset.withPins s).withSounds s).clips
        cues := s.cues
        program := { LinkUnit.reset s.program with notices := [⟨false, .started .softReset 0⟩] }
        tablet :=
          if s.linkUp then { LinkUnit.reset s.tablet with notices := [⟨false, .started .softReset 0⟩] }
          else LinkUnit.reset s.tablet } := by
  have sounds := withSounds_frame (State.reset.withPins s) s
  unfold softReset
  generalize (State.reset.withPins s).withSounds s = u at sounds ⊢
  have program : u.link .program = LinkUnit.reset s.program := by rw [sounds]; rfl
  have tablet : u.link .tablet = LinkUnit.reset s.tablet := by rw [sounds]; rfl
  rw [started_reset program tablet, sounds]
  rfl

/-- Settles O6: the reset values with the pins and the queue, STARTED on the links, and what soft reset keeps. -/
theorem resetsGiveResetValues : Obligations.ResetsGiveResetValues := by
  unfold Obligations.ResetsGiveResetValues
  exact ⟨fun s => next_congr (started_reset rfl rfl .powerOn),
    fun s => ⟨_, next_congr (softReset_eq s), clip_withSounds (State.reset.withPins s) s, rfl⟩⟩

/-! ### The invariants at reset -/

/-- Settles O60: an empty store, no grant, no claim, and one notice at most on a link. -/
theorem invAtReset : Obligations.InvAtReset where
  store := ⟨rfl, nofun⟩
  budget := by unfold BudgetInv; decide
  claims r := by rw [claim_reset]; exact trivial
  notices src := by cases src <;> decide

end Sys2Proof.Machine

namespace Sys2Proof.Machine

open Sys2Proof.Safety

/-! ### Legal owner records (R159, R160, R163) -/

/-- R160: the lease that TABLET gets starts full. -/
theorem clampLease_tablet (n : Nat) :
    clampLease .tablet n = some ⟨max 100 (min 5000 n), max 100 (min 5000 n)⟩ := by
  simp only [clampLease, clampNat_eq (show 100 ≤ 5000 by decide)]

/-- R160: the lease that PROGRAM gets; 0 means none. -/
theorem clampLease_program (n : Nat) :
    clampLease .program n = if n = 0 then none else some ⟨max 100 (min 60000 n), max 100 (min 60000 n)⟩ := by
  simp only [clampLease, clampNat_eq (show 100 ≤ 60000 by decide)]

/-- R159, R160: a source that is given a resource with its clamped lease has a legal record. -/
theorem legalClaim_given (src : Source) (n : Nat) : LegalClaim ⟨some src, clampLease src n⟩ := by
  cases src with
  | tablet =>
    rw [clampLease_tablet]
    simp only [LegalClaim]
    omega
  | program =>
    rw [clampLease_program]
    by_cases zero : n = 0
    · rw [if_pos zero]
      trivial
    · rw [if_neg zero]
      simp only [LegalClaim]
      omega

theorem legalClaim_none : LegalClaim Claim.none := trivial

/-- R159: a legal record whose lease timer alone changes stays legal while there is time left and no more than the
period. -/
theorem legalClaim_timer {f : Lease → Nat}
    (runs : ∀ l, 100 ≤ l.period → 1 ≤ l.remaining → l.remaining ≤ l.period → 1 ≤ f l ∧ f l ≤ l.period)
    {c : Claim} (legal : LegalClaim c) :
    LegalClaim { c with lease := c.lease.map fun l => { l with remaining := f l } } := by
  obtain ⟨owner, lease⟩ := c
  cases lease with
  | none => exact legal
  | some l =>
    cases owner with
    | none => exact legal
    | some src =>
      cases src <;> exact
        have ⟨low, high, left, full⟩ := legal
        ⟨low, high, runs l low left full⟩

/-- R163: a restarted lease is full. -/
theorem legalClaim_restarted {c : Claim} (legal : LegalClaim c) : LegalClaim (Claim.restarted c) :=
  legalClaim_timer (fun l low _ _ => ⟨by omega, Nat.le_refl _⟩) legal

/-- R163: a lease timer that is due stays at 1 until its expiry is taken. -/
theorem legalClaim_pass {c : Claim} (legal : LegalClaim c) : LegalClaim (Claim.pass c) :=
  legalClaim_timer (fun l _ left full => by unfold countDown; split <;> omega) legal

/-! ### Work that keeps the owner records legal (R159) -/

theorem claim_of_steady {s t : State} (work : Steady s t) (r : Resource) : t.claim r = s.claim r := by
  cases r
  · unfold State.claim; simp only [work.motorClaims]
  · unfold State.claim; simp only [work.voiceClaims]

/-- The invariant reads the owner records alone. -/
theorem claimInv_of_claims {s t : State} (same : ∀ r, t.claim r = s.claim r) (inv : ClaimInv s) : ClaimInv t := fun r =>
  (same r).symm ▸ inv r

theorem claimInv_of_steady {s t : State} (work : Steady s t) (inv : ClaimInv s) : ClaimInv t :=
  claimInv_of_claims (claim_of_steady work) inv

theorem claimInv_of_quiet {s t : State} (work : Quiet s t) (inv : ClaimInv s) : ClaimInv t :=
  claimInv_of_steady work.toSteady inv

theorem claimInv_setLink (s : State) (src : Source) (l : LinkUnit) (inv : ClaimInv s) : ClaimInv (s.setLink src l) :=
  claimInv_of_claims (State.claim_setLink s src l) inv

theorem claimInv_setClaim {s : State} {c : Claim} (legal : LegalClaim c) (r : Resource) (inv : ClaimInv s) :
    ClaimInv (s.setClaim r c) := fun q => by
  rw [State.claim_setClaim]
  split
  · exact legal
  · exact inv q

theorem claimInv_restartLease {s : State} (r : Resource) (inv : ClaimInv s) : ClaimInv (s.restartLease r) :=
  claimInv_setClaim (legalClaim_restarted (inv r)) r inv

/-- R161: the record that takes the place of an ended claim is legal, and the others stay. -/
theorem claimInv_endClaim {s : State} {new : Claim} (legal : LegalClaim new) (r : Resource) (reason : ClaimEndReason)
    (inv : ClaimInv s) : ClaimInv (endClaim r reason new s) := fun q => by
  rw [claim_endClaim]
  split
  · exact legal
  · exact inv q

theorem claimInv_foldl {α : Type} {f : State → α → State} (turn : ∀ t a, ClaimInv t → ClaimInv (f t a)) (xs : List α)
    {s : State} (inv : ClaimInv s) : ClaimInv (xs.foldl f s) :=
  List.foldlRecOn xs f inv fun t held a _ => turn t a held

theorem claimInv_ite {p : Prop} [Decidable p] {a b : State} (h : ClaimInv a) (k : ClaimInv b) :
    ClaimInv (if p then a else b) := by
  split
  · exact h
  · exact k

theorem claimInv_endClaimsOf (src : Source) (reason : ClaimEndReason) (t : State) (r : Resource) (inv : ClaimInv t) :
    ClaimInv (endClaimsOf src reason t r) :=
  claimInv_ite (claimInv_endClaim legalClaim_none r reason inv) inv

/-! ### The blocks' acts on requests -/

/-- An act of a block leaves legal owner records where it finds them. -/
def ActKeepsClaims (act : State → State × Reply) : Prop := ∀ s, ClaimInv s → ClaimInv (act s).1

/-- R163: an owner-only request changes the owner records in the restart of a lease, if at all. -/
theorem claimInv_ownerOnly {act : State → State × Reply} (keeps : ActKeepsClaims act) (r : Resource) (src : Source) :
    ActKeepsClaims (ownerOnly r src act) := fun s inv => by
  have acted := keeps s inv
  fun_cases ownerOnly r src act s
  · next e _ =>
    rw [e] at acted
    exact claimInv_restartLease r acted
  · next e _ => rwa [e] at acted
  · exact inv

theorem claimInv_motorRequest {act : MotorId → State → State × Reply} (keeps : ∀ m, ActKeepsClaims (act m)) (n : Nat)
    (src : Source) : ActKeepsClaims (motorRequest n src act) := fun s inv => by
  fun_cases motorRequest n src act s
  · exact inv
  · exact claimInv_ownerOnly (keeps _) _ src s inv

theorem claimInv_voiceRequest {act : VoiceId → State → State × Reply} (keeps : ∀ v, ActKeepsClaims (act v)) (n : Nat)
    (src : Source) : ActKeepsClaims (voiceRequest n src act) := fun s inv => by
  fun_cases voiceRequest n src act s
  · exact inv
  · exact claimInv_ownerOnly (keeps _) _ src s inv

/-- R160: CLAIM gives its sender a clamped lease on every resource of the set, or changes nothing. -/
theorem claimInv_claimRequest (src : Source) (f : ClaimFields) : ActKeepsClaims (claimRequest src f) := fun s inv => by
  fun_cases claimRequest src f s
  · exact inv
  · exact inv
  · exact claimInv_foldl (fun t r => claimInv_setClaim (legalClaim_given src f.lease) r) _ inv

/-- R162: RELEASE empties records. -/
theorem claimInv_releaseRequest (src : Source) (set : List Resource) : ActKeepsClaims (releaseRequest src set) :=
  fun s inv => by
    fun_cases releaseRequest src set s
    · exact inv
    · exact claimInv_foldl (claimInv_endClaimsOf src .released) _ inv

/-- R163: RENEW restarts leases. -/
theorem claimInv_renewRequest (src : Source) (set : List Resource) : ActKeepsClaims (renewRequest src set) :=
  fun s inv => by
    fun_cases renewRequest src set s
    · exact inv
    · exact claimInv_foldl (fun t r held => claimInv_ite (claimInv_restartLease r held) held) _ inv

/-- R164: TAKE gives PROGRAM a clamped lease on every resource of the set. -/
theorem claimInv_takeRequest (f : ClaimFields) : ActKeepsClaims (takeRequest f) := fun s inv => by
  have given := legalClaim_given .program f.lease
  fun_cases takeRequest f s
  · exact inv
  · exact claimInv_foldl
      (fun t r held => claimInv_ite (claimInv_endClaim given r .taken held) (claimInv_setClaim given r held)) _ inv

theorem claimInv_clearFault (m : MotorId) : ActKeepsClaims (clearFault m) := fun s inv => by
  fun_cases clearFault m s
  · exact claimInv_of_quiet (quiet_enterRest m .idle s) inv
  · exact inv

theorem claimInv_haltMotor (a : Coded StopAction) (m : MotorId) : ActKeepsClaims (haltMotor a m) := fun s inv => by
  fun_cases haltMotor a m s
  · exact inv
  · exact claimInv_of_quiet (quiet_afterEvents (quiet_stopAction m _ _ s)) inv

theorem claimInv_playRequest (cue : Nat) (v : VoiceId) : ActKeepsClaims (playRequest cue v) := fun s inv => by
  fun_cases playRequest cue v s
  · exact inv
  · exact inv
  · exact claimInv_of_quiet (quiet_playVoice quiet_react v _ s) inv

theorem claimInv_stopRequest (o : Coded FadeOption) (v : VoiceId) : ActKeepsClaims (stopRequest o v) := fun s inv => by
  fun_cases stopRequest o v s
  · exact inv
  · exact claimInv_of_quiet (quiet_stopVoice quiet_react v _ s) inv

theorem claimInv_voiceGain (x : Int) (v : VoiceId) : ActKeepsClaims (voiceGain x v) := fun s inv =>
  have set : ClaimInv (s.modVoice v fun vo => { vo with level := clampNat 0 1024 x }) :=
    claimInv_of_quiet (quiet_modVoice s v _) inv
  claimInv_ite (claimInv_of_quiet (quiet_retarget v _) set) set

/-- R65 to R67: BUDGET_SET changes the governor and the motors and voices that it scales down. -/
theorem claimInv_budgetSet (x : Int) : ActKeepsClaims (budgetSet x) := fun s inv => by
  show ClaimInv (setBudget (clampNat 500 8000 x) s).1
  rcases Nat.lt_or_ge (clampNat 500 8000 x) s.governor.used with exceeded | covers
  · rw [setBudget_exceeded exceeded, scaledDown_frame s]
    exact inv
  · rw [setBudget_covers covers]
    exact inv

theorem claimInv_mapSet (f : MapFields) : ActKeepsClaims (mapSet f) := fun s inv => by
  fun_cases mapSet f s
  case case5 => exact claimInv_of_steady (calm_mapChannel _ _ s).toSteady inv
  all_goals exact inv

theorem claimInv_mapClear (n : Nat) : ActKeepsClaims (mapClear n) := fun s inv => by
  have cleared (ch : ChannelId) : ClaimInv (clearChannel ch s) :=
    claimInv_of_steady (calm_clearChannel ch s).toSteady inv
  fun_cases mapClear n s
  case case1 => exact inv
  case case2 => exact inv
  case case3 => exact inv
  case case4 ch _ _ => exact claimInv_of_steady (calm_channelNotice ch .unmapped .cleared s).toSteady inv
  all_goals
    dsimp only
    exact cleared _

theorem claimInv_watchSet (src : Source) (f : WatchFields) : ActKeepsClaims (watchSet src f) := fun s inv => by
  fun_cases watchSet src f s
  case case3 ch idx kind _ _ _ _ _ => fun_cases placeWatch src f ch idx kind s <;> exact inv
  all_goals exact inv

theorem claimInv_periodExpiry (n : SubId) {s : State} (inv : ClaimInv s) : ClaimInv (periodExpiry n s) := by
  fun_cases periodExpiry n s <;> exact inv

theorem claimInv_subscribe (src : Source) (f : SubscribeFields) : ActKeepsClaims (subscribe src f) := fun s inv => by
  fun_cases subscribe src f s
  case case5 n _ _ _ _ _ => exact claimInv_periodExpiry n inv
  all_goals exact inv

/-- R159: what a block does with a request keeps every owner record legal. -/
theorem claimInv_act {src : Source} {k : RequestKind} {act : Fin 8 → State → State × Option Reply}
    (acts : ActsOn src k act) (i : Fin 8) (s : State) (inv : ClaimInv s) : ClaimInv (act i s).1 := by
  cases acts with
  | ident => exact inv
  | reset => exact inv
  | claim f => exact claimInv_claimRequest src f s inv
  | release set => exact claimInv_releaseRequest src set s inv
  | renew set => exact claimInv_renewRequest src set s inv
  | take f => exact claimInv_takeRequest f s inv
  | motorSet n f =>
    exact claimInv_motorRequest (fun m t held => by fun_cases motorSet f m t <;> exact held) n src s inv
  | motorRead n => show ClaimInv (motorRead n s).1; fun_cases motorRead n s <;> exact inv
  | zero n x => exact claimInv_motorRequest (fun m t held => by fun_cases zeroMotor x m t <;> exact held) n src s inv
  | clearFault n => exact claimInv_motorRequest claimInv_clearFault n src s inv
  | seg n r => exact claimInv_motorRequest (fun m t held => by fun_cases segMotor r m t <;> exact held) n src s inv
  | halt n a => exact claimInv_motorRequest (claimInv_haltMotor a) n src s inv
  | budgetSet x => exact claimInv_budgetSet x s inv
  | budgetRead => exact inv
  | chainRestart port o => exact claimInv_of_steady (steady_chainRestart port o s) inv
  | chainSet port f => exact claimInv_of_steady (steady_chainSet port f s) inv
  | chainRead port => show ClaimInv (chainRead port s).1; fun_cases chainRead port s <;> exact inv
  | moduleRead port pos => show ClaimInv (moduleRead port pos s).1; fun_cases moduleRead port pos s <;> exact inv
  | modulePageWrite port pos page b => exact claimInv_of_steady (steady_pageRequest src port pos page (some b) i s) inv
  | modulePageRead port pos page => exact claimInv_of_steady (steady_pageRequest src port pos page none i s) inv
  | mapSet f => exact claimInv_mapSet f s inv
  | mapClear n => exact claimInv_mapClear n s inv
  | channelRead n => show ClaimInv (channelRead n s).1; fun_cases channelRead n s <;> exact inv
  | watchSet f => exact claimInv_watchSet src f s inv
  | watchClear n => show ClaimInv (watchClear src n s).1; fun_cases watchClear src n s <;> exact inv
  | reactSet f => show ClaimInv (reactSet src f s).1; fun_cases reactSet src f s <;> exact inv
  | reactClear n => show ClaimInv (reactClear src n s).1; fun_cases reactClear src n s <;> exact inv
  | reactRead x => show ClaimInv (reactRead x s).1; fun_cases reactRead x s <;> exact inv
  | windowSet f => show ClaimInv (windowSet f s).1; fun_cases windowSet f s <;> exact inv
  | storeWrite base bytes =>
    show ClaimInv (storeWrite src base bytes s).1; fun_cases storeWrite src base bytes s <;> exact inv
  | storeRead base count =>
    show ClaimInv (storeRead src base count s).1; fun_cases storeRead src base count s <;> exact inv
  | clipDefine f => show ClaimInv (clipDefine src f s).1; fun_cases clipDefine src f s <;> exact inv
  | clipRemove n => show ClaimInv (clipRemove src n s).1; fun_cases clipRemove src n s <;> exact inv
  | cueSet f => show ClaimInv (cueSet src f s).1; fun_cases cueSet src f s <;> exact inv
  | cueClear n => show ClaimInv (cueClear src n s).1; fun_cases cueClear src n s <;> exact inv
  | play n cue => exact claimInv_voiceRequest (claimInv_playRequest cue) n src s inv
  | stop n o => exact claimInv_voiceRequest (claimInv_stopRequest o) n src s inv
  | voiceGain n x => exact claimInv_voiceRequest (claimInv_voiceGain x) n src s inv
  | masterSet x => exact inv
  | subscribe f => exact claimInv_subscribe src f s inv
  | unsubscribe n => show ClaimInv (unsubscribe src n s).1; fun_cases unsubscribe src n s <;> exact inv

/-! ### Frames sent, resets and LINK_UP -/

theorem claimInv_sendTelemetry (link : Source) {s : State} (inv : ClaimInv s) : ClaimInv (sendTelemetry link s) :=
  claimInv_setLink _ link _
    (claimInv_foldl (fun t x held => by fun_cases markSent t x <;> exact held) _ inv)

theorem claimInv_chooseFrame (link : Source) {s : State} (inv : ClaimInv s) : ClaimInv (chooseFrame link s) := by
  fun_cases chooseFrame link s
  · exact claimInv_setLink s link _ inv
  · exact claimInv_sendTelemetry link inv
  · exact claimInv_setLink s link _ inv
  · exact inv
  · exact claimInv_sendTelemetry link inv

/-- R159: after a reset every owner record is NONE. -/
theorem claimInv_reset : ClaimInv State.reset := fun r => by
  rw [claim_reset]
  exact legalClaim_none

theorem claimInv_softReset (s : State) : ClaimInv (softReset s) := by
  rw [softReset_eq]
  exact claimInv_reset

theorem claimInv_powerOn (s : State) : ClaimInv (powerOn s) :=
  claimInv_of_quiet (quiet_placeBoth (State.reset.withPins s) _) claimInv_reset

theorem claimInv_frameSent (link : Source) {s : State} (inv : ClaimInv s) : ClaimInv (frameSent link s) := by
  fun_cases frameSent link s
  · exact inv
  · exact claimInv_softReset _
  · exact claimInv_setLink s link _ inv

/-- R166: the fall of LINK_UP empties the records of TABLET. -/
theorem claimInv_linkUpFall {s : State} (inv : ClaimInv s) : ClaimInv (linkUpFall s) := by
  have dropped : ClaimInv (tabletDropped s) := by
    rw [sameBesideTables_tabletDropped s]
    exact inv
  have ended := claimInv_foldl (claimInv_endClaimsOf .tablet .linkDown) allResources dropped
  rw [linkUpFall_eq]
  generalize allResources.foldl (endClaimsOf .tablet .linkDown) (tabletDropped s) = u at ended ⊢
  exact ended

theorem claimInv_idle {s : State} (inv : ClaimInv s) : ClaimInv (idle s) := fun r => by
  rw [claim_idle]
  exact legalClaim_pass (inv r)

/-! ### One command keeps every owner record legal (R159) -/

theorem claimInv_expireDuration (m : MotorId) {s : State} (inv : ClaimInv s) : ClaimInv (expireDuration m s) := by
  fun_cases expireDuration m s
  · exact inv
  · exact claimInv_of_quiet ((quiet_modMotor s m _).trans (quiet_afterEvents (quiet_durationExpired m _))) inv
  · exact inv

theorem claimInv_outputSample {s : State} (inv : ClaimInv s) : ClaimInv (outputSample react s) := by
  obtain ⟨x, quiet⟩ := quiet_outputSample s
  exact claimInv_of_quiet (s := { s with aout := x }) quiet inv

theorem event_claimInv {c : Instr} (event : requestOf c = none) {s : State} (inv : ClaimInv s) :
    ∃ t, exec c s = .next t ∧ ClaimInv t := by
  cases c with
  | powerOn => exact ⟨_, rfl, claimInv_powerOn s⟩
  | softReset => exact ⟨_, rfl, claimInv_softReset s⟩
  | linkUpFall => exact ⟨_, rfl, claimInv_ite (claimInv_linkUpFall inv) inv⟩
  | linkUpRise => exact ⟨_, rfl, claimInv_ite inv (by rw [linkUpRise_eq]; exact inv)⟩
  | readyInChange link high =>
    refine ⟨_, rfl, ?_⟩
    split
    · exact claimInv_setLink s link _ inv
    · exact claimInv_setLink s link _ inv
  | byteReceived link b =>
    exact ⟨_, rfl, claimInv_ite inv (assemble_keeps claimInv_setLink claimInv_act link b inv)⟩
  | frameByteTimeout link => exact ⟨_, rfl, claimInv_setLink s link _ inv⟩
  | unknownKind src tag kind =>
    exact ⟨_, rfl, claimInv_ite inv (takeUnknown_keeps claimInv_setLink src tag kind inv)⟩
  | frameStart link => exact ⟨_, rfl, claimInv_ite (claimInv_chooseFrame link inv) inv⟩
  | frameSent link => exact ⟨_, rfl, claimInv_ite inv (claimInv_frameSent link inv)⟩
  | leaseExpiry r => exact ⟨_, rfl, claimInv_ite (claimInv_endClaim legalClaim_none r .lease inv) inv⟩
  | encoderStep m a b => exact ⟨_, rfl, inv⟩
  | controlTick m x => exact ⟨_, rfl, claimInv_of_quiet (quiet_afterEvents (quiet_controlTick m x s)) inv⟩
  | trip m => exact ⟨_, rfl, claimInv_ite (claimInv_of_quiet (quiet_afterEvents (quiet_takeTrip m s)) inv) inv⟩
  | durationExpiry m => exact ⟨_, rfl, claimInv_expireDuration m inv⟩
  | stall m => exact ⟨_, rfl, claimInv_ite (claimInv_of_quiet (quiet_afterEvents (quiet_takeStall m s)) inv) inv⟩
  | resetRestExpiry p => exact ⟨_, rfl, claimInv_of_steady (steady_restExpiry p s) inv⟩
  | trainRetryTimer p => exact ⟨_, rfl, claimInv_of_steady (steady_trainRetry p s) inv⟩
  | emptyProbeTimer p => exact ⟨_, rfl, claimInv_of_steady (steady_probeExpiry p s) inv⟩
  | faultRetryTimer p => exact ⟨_, rfl, claimInv_of_steady (steady_faultRetry p s) inv⟩
  | syncTimerExpiry p => exact ⟨_, rfl, claimInv_of_steady (steady_syncExpiry p s) inv⟩
  | callSent p => exact ⟨_, rfl, claimInv_of_steady (steady_callSent p s) inv⟩
  | transactionEnd p a b => exact ⟨_, rfl, claimInv_of_steady (steady_answersHeard p false a b s) inv⟩
  | answerTimeout p a b => exact ⟨_, rfl, claimInv_of_steady (steady_answersHeard p true a b s) inv⟩
  | missesAbsent p k => exact ⟨_, rfl, claimInv_of_steady (steady_missesAbsent p k s) inv⟩
  | settleExpiry p k => exact ⟨_, rfl, claimInv_of_steady (steady_settleExpiry p k s) inv⟩
  | staleDeadline ch => exact ⟨_, rfl, claimInv_ite inv inv⟩
  | outputSample => exact ⟨_, rfl, claimInv_outputSample inv⟩
  | periodExpiry n => exact ⟨_, rfl, claimInv_periodExpiry n inv⟩
  | carrierPeriod => exact ⟨_, rfl, inv⟩
  | _ => cases event

theorem exec_claimInv (c : Instr) {s : State} (inv : ClaimInv s) : ∃ t, exec c s = .next t ∧ ClaimInv t := by
  cases request : requestOf c with
  | none => exact event_claimInv request inv
  | some row =>
    obtain ⟨src, tag, k⟩ := row
    obtain ⟨act, acts, run⟩ := exec_request request
    exact ⟨_, run s, serveLater_keeps claimInv_setLink (claimInv_act acts) k src tag inv⟩

/-- Settles O58: an idle millisecond takes no lease to 0, and every command leaves each owner record as it was, empties
it, restarts its lease, or gives it an owner with a clamped lease. -/
theorem claimInvKept : Obligations.ClaimInvKept := by
  intro s t inv run
  unfold step at run
  split at run
  · cases run
    exact claimInv_idle inv
  · next c rest _ =>
    obtain ⟨u, next, kept⟩ := exec_claimInv c (s := { s with pending := rest }) inv
    cases next.symm.trans run
    exact kept

end Sys2Proof.Machine

namespace Sys2Proof.Machine

open Sys2Proof.Safety

/-! ### Frames turned away (R167, R178) -/

/-- R178 step 1: the reply of kind FFh to a frame of an unknown kind, in the lowest free slot. -/
theorem takeUnknown_accepted {s : State} {src : Source} {i : Fin 8} (h : Accepts s src i) (tag kind : Byte) :
    takeUnknown src tag kind s = s.setLink src ((s.link src).unknown i tag kind) := by
  obtain ⟨takes, free⟩ := h
  unfold takeUnknown
  rw [if_pos takes, free]

theorem exec_unknownKind {kind : Byte} (unknown : ∀ k, RequestKind.code k ≠ kind) (src : Source) (tag : Byte)
    (s : State) : exec (.unknownKind src tag kind) s = .next (takeUnknown src tag kind s) :=
  next_congr (if_neg (by rw [kindOf_eq_none unknown]; decide))

theorem programOnly_iff (k : RequestKind) :
    RequestKind.programOnly k = true ↔
      k ∈ [.reset, .take, .budgetSet, .chainRestart, .chainSet, .modulePageWrite, .mapSet, .mapClear, .windowSet,
        .masterSet] :=
  List.contains_iff_mem

/-- R159, R167: of the PROGRAM-only kinds TAKE alone is a claim request. -/
theorem repliesTable_programOnly (k : RequestKind) (only : RequestKind.programOnly k = true) :
    RequestKind.repliesTable k = decide (k = .take) := by
  revert only
  cases k <;> decide

theorem linkRefusal_programOnly {k : RequestKind} (only : RequestKind.programOnly k = true) (st : Status) (s : State) :
    linkRefusal k st s = ⟨st, false, if k = .take then .claims (claimTable s) [] else .empty⟩ := by
  rw [linkRefusal, repliesTable_programOnly k only]
  simp only [decide_eq_true_eq]

/-- Settles O9: a frame is turned away for its kind, for its link's slots, or for its sender. -/
theorem requestsTurnedAway : Obligations.RequestsTurnedAway := by
  unfold Obligations.RequestsTurnedAway
  refine ⟨fun s src i tag kind unknown h => ?_, fun c s src tag k request closed => ?_,
    fun c s tag k i request only h => ?_⟩
  · exact (exec_unknownKind unknown src tag s).trans (next_congr (takeUnknown_accepted h tag kind))
  · obtain ⟨act, -, run⟩ := exec_request request
    rw [← LinkUnit.freeSlot_eq_none] at closed
    exact (run s).trans (next_congr (serveLater_discarded closed k tag act))
  · obtain ⟨act, -, run⟩ := exec_request request
    have only := (programOnly_iff k).2 only
    rw [run s, serveLater_notPermitted h only, linkRefusal_programOnly only]

end Sys2Proof.Machine

namespace Sys2Proof.Machine

open Sys2Proof.Safety

/-! ### CLAIM (R159, R160) -/

/-- One owner record given, beside the others. -/
def giveClaim (new : Claim) (u : State) (r : Resource) : State := u.setClaim r new

theorem claim_foldl_giveClaim (new : Claim) {xs : List Resource} (nodup : xs.Nodup) (s : State) (r : Resource) :
    (xs.foldl (giveClaim new) s).claim r = if r ∈ xs then new else s.claim r :=
  foldl_pointwise (get := State.claim) (g := fun _ _ => new) (fun t i j => State.claim_setClaim t i j new) nodup s r

theorem withClaims_foldl_giveClaim (new : Claim) (xs : List Resource) (s : State) :
    withClaims (xs.foldl (giveClaim new) s) s = s :=
  List.foldlRecOn xs (giveClaim new) (motive := fun t => withClaims t s = s) rfl
    fun t same r _ => (withClaims_setClaim t s r new).trans same

/-- R160, R178: claims given and the reservation of a slot commute. -/
theorem foldl_giveClaim_reserved (new : Claim) (s : State) (src : Source) (i : Fin 8) (kind tag : Byte)
    (xs : List Resource) :
    xs.foldl (giveClaim new) (reserved s src i kind tag) = reserved (xs.foldl (giveClaim new) s) src i kind tag :=
  List.foldl_hom (fun t => reserved t src i kind tag) fun t r => reserved_setClaim t src i kind tag r new

/-- R160: the resources of a set that the other source owns, in the order M0 to M5, V0 to V3. -/
def heldByOther (src : Source) (set : List Resource) (s : State) : List Resource :=
  (inOrder set).filter fun r => s.owner r = some (otherSource src)

theorem mem_heldByOther (src : Source) (set : List Resource) (s : State) (r : Resource) :
    r ∈ heldByOther src set s ↔ r ∈ set ∧ s.owner r = some (otherSource src) := by
  simp [heldByOther, mem_inOrder]

theorem heldByOther_reserved (src : Source) (set : List Resource) (s : State) (i : Fin 8) (kind tag : Byte) :
    heldByOther src set (reserved s src i kind tag) = heldByOther src set s := by
  simp only [heldByOther, reserved_owner]

theorem claimRequest_nil {f : ClaimFields} (empty : f.set = []) (src : Source) (t : State) :
    claimRequest src f t = (t, claimReply .badValue false [] t) := if_pos ((inOrder_eq_nil f.set).2 empty)

/-- R160: all or nothing, in a set that names a resource. -/
theorem claimRequest_set {f : ClaimFields} (full : f.set ≠ []) (src : Source) (t : State) :
    claimRequest src f t =
      if heldByOther src f.set t ≠ [] then (t, claimReply .held false (heldByOther src f.set t) t)
      else
        ((inOrder f.set).foldl (giveClaim ⟨some src, clampLease src f.lease⟩) t,
          claimReply .ok (leaseClamped src f.lease) []
            ((inOrder f.set).foldl (giveClaim ⟨some src, clampLease src f.lease⟩) t)) :=
  if_neg fun e => full ((inOrder_eq_nil f.set).1 e)

section Claim

variable {s : State} {src : Source} {i : Fin 8} {f : ClaimFields} (h : Accepts s src i) (tag : Byte)
include h

/-- R160: a resource of the set that the other source owns: nothing is claimed. -/
theorem serve_claim_held {r : Resource} (named : r ∈ f.set) (other : s.owner r = some (otherSource src)) :
    serve .claim src tag (claimRequest src f) s =
      answered s src i 0x08#8 tag ⟨.held, false, .claims (claimTable s) (heldByOther src f.set s)⟩ := by
  refine serve_answered h .claim tag nofun ?_
  have held : heldByOther src f.set s ≠ [] := List.ne_nil_of_mem ((mem_heldByOther src f.set s r).2 ⟨named, other⟩)
  rw [claimRequest_set (List.ne_nil_of_mem named), heldByOther_reserved, if_pos held, claimReply, claimTable_reserved]

/-- R160: no resource of the set is the other source's: all are claimed. -/
theorem serve_claim_ok (full : f.set ≠ []) (free : ∀ r ∈ f.set, s.owner r ≠ some (otherSource src)) {t : State}
    (given : t = (inOrder f.set).foldl (giveClaim ⟨some src, clampLease src f.lease⟩) s) :
    serve .claim src tag (claimRequest src f) s =
      answered t src i 0x08#8 tag ⟨.ok, leaseClamped src f.lease, .claims (claimTable t) []⟩ := by
  refine serve_answered h .claim tag nofun ?_
  have none : heldByOther src f.set s = [] := List.eq_nil_iff_forall_not_mem.2 fun r held =>
    have ⟨named, other⟩ := (mem_heldByOther src f.set s r).1 held
    free r named other
  rw [claimRequest_set full, heldByOther_reserved, if_neg (not_not.2 none), foldl_giveClaim_reserved, ← given,
    claimReply, claimTable_reserved]

end Claim

/-- R160: CLAMPED tells that clamping changed the lease. -/
theorem leaseClamped_tablet (n : Nat) : leaseClamped .tablet n = true ↔ n < 100 ∨ 5000 < n := by
  unfold leaseClamped
  rw [outOfRange_iff]
  omega

theorem leaseClamped_program (n : Nat) :
    leaseClamped .program n = true ↔ n ≠ 0 ∧ (n < 100 ∨ 60000 < n) := by
  unfold leaseClamped
  rw [Bool.and_eq_true, outOfRange_iff, decide_eq_true_eq]
  omega

/-- Settles O15: CLAIM by whether the set is empty and whether the other source owns some of it, and the lease by its
source. -/
theorem claimIsAllOrNothing : Obligations.ClaimIsAllOrNothing := by
  unfold Obligations.ClaimIsAllOrNothing
  refine ⟨fun s src i tag f h => ⟨fun empty => ?_, fun r named other => ?_, fun full free => ?_⟩,
    fun n => ⟨clampLease_tablet n, clampLease_program n, leaseClamped_tablet n, leaseClamped_program n⟩⟩
  · exact next_congr (serve_emptySet (k := .claim) h nofun tag (claimRequest_nil empty src))
  · exact ⟨_, next_congr (serve_claim_held h tag named other), mem_heldByOther src f.set s⟩
  · have given := claim_foldl_giveClaim ⟨some src, clampLease src f.lease⟩ (nodup_inOrder f.set) s
    refine ⟨_, next_congr (serve_claim_ok h tag full free rfl), fun r named => ?_, fun r unnamed => ?_,
      withClaims_foldl_giveClaim _ _ s⟩
    · rw [given, if_pos ((mem_inOrder f.set r).2 named)]
    · rw [given, if_neg fun inside => unnamed ((mem_inOrder f.set r).1 inside)]

/-! ### LEASE_EXPIRY (R161, R165) -/

/-- R161: the four steps of a claim end, with the clock at the first. -/
theorem endClaim_eq (r : Resource) (reason : ClaimEndReason) (new : Claim) (s : State) :
    endClaim r reason new s =
      react (.claimEnd r reason)
        (((claimStop r reason s).setClaim r new).placeBoth
          (.claimEnd r reason (s.owner r) new.owner (claimStop r reason s).time)) := by
  unfold endClaim
  dsimp only
  rw [State.setClaim_time]

theorem exec_leaseExpiry_none {s : State} {r : Resource} (unleased : (s.claim r).lease = none) :
    exec (.leaseExpiry r) s = .next s :=
  next_congr (if_neg (by rw [unleased]; decide))

theorem exec_leaseExpiry {s : State} {r : Resource} (leased : (s.claim r).lease ≠ none) :
    exec (.leaseExpiry r) s = .next (endClaim r .lease Claim.none s) :=
  next_congr (if_pos (Option.isSome_iff_ne_none.2 leased))

/-- Settles O18: a lease expiry is the end of the claim with reason LEASE, whose first step is the stop of a motor or
the fade-stop of a voice. -/
theorem leaseExpiryEndsClaim : Obligations.LeaseExpiryEndsClaim := by
  unfold Obligations.LeaseExpiryEndsClaim
  refine fun s r => ⟨exec_leaseExpiry_none, fun leased => ?_⟩
  refine ⟨endClaim r .lease Claim.none s, claimStop r .lease s, exec_leaseExpiry leased, ?_, ?_,
    endClaim_eq r .lease Claim.none s, fun q => (claim_endClaim r q .lease Claim.none s).trans ?_,
    quiet_endClaim r .lease Claim.none s⟩
  · rintro m rfl
    rfl
  · rintro v rfl
    rfl
  · exact if_congr eq_comm rfl rfl

end Sys2Proof.Machine

namespace Sys2Proof.Machine

open Sys2Proof.Safety

/-! ### The due list of a link (R171, R172) -/

theorem allSubs_pairwise_lt : allSubs.Pairwise (· < ·) := by decide

/-- R171: what one entry gives to the due list of a link. -/
def dueEntry (s : State) (link : Source) (n : SubId) : Option (SubId × Subscription) :=
  match s.sub n with
  | some x => if x.due && x.link = link then some (n, x) else none
  | none => none

theorem dueList_eq_filterMap (s : State) (link : Source) : dueList s link = allSubs.filterMap (dueEntry s link) := rfl

theorem dueEntry_eq_some {s : State} {link : Source} {k n : SubId} {x : Subscription} :
    dueEntry s link k = some (n, x) ↔ k = n ∧ Due s link n x := by
  unfold dueEntry Due
  constructor
  · intro found
    split at found
    · next y held =>
      simp only [Option.ite_none_right_eq_some, Bool.and_eq_true, decide_eq_true_eq, Option.some.injEq,
        Prod.mk.injEq] at found
      obtain ⟨⟨due, own⟩, rfl, rfl⟩ := found
      exact ⟨rfl, held, own, due⟩
    · cases found
  · rintro ⟨rfl, held, own, due⟩
    simp [held, own, due]

theorem mem_dueList {s : State} {link : Source} {n : SubId} {x : Subscription} :
    (n, x) ∈ dueList s link ↔ Due s link n x := by
  simp [dueList_eq_filterMap, dueEntry_eq_some, mem_allSubs]

theorem dueList_pairwise_lt (s : State) (link : Source) : (dueList s link).Pairwise fun a b => a.1 < b.1 := by
  rw [dueList_eq_filterMap]
  refine List.Pairwise.filterMap _ (fun i j lt a foundA b foundB => ?_) allSubs_pairwise_lt
  obtain ⟨rfl, -⟩ := dueEntry_eq_some.1 foundA
  obtain ⟨rfl, -⟩ := dueEntry_eq_some.1 foundB
  exact lt

theorem dueList_eq_nil_iff {s : State} {link : Source} : dueList s link = [] ↔ ¬∃ n x, Due s link n x := by
  simp only [List.eq_nil_iff_forall_not_mem, Prod.forall, mem_dueList, not_exists]

theorem urgentAt_iff {now : Word} {x : Subscription} (due : x.due = true) :
    urgentAt now x = true ↔ Urgent now x := by
  simp [urgentAt, Urgent, due]

theorem anyUrgent_iff (s : State) (link : Source) : anyUrgent s link = true ↔ UrgentDue s link := by
  unfold anyUrgent UrgentDue
  rw [List.any_eq_true]
  constructor
  · rintro ⟨⟨n, x⟩, mem, urgent⟩
    obtain ⟨held, own, due⟩ := mem_dueList.1 mem
    exact ⟨n, x, ⟨held, own, due⟩, (urgentAt_iff due).1 urgent⟩
  · rintro ⟨n, x, ⟨held, own, due⟩, urgent⟩
    exact ⟨(n, x), mem_dueList.2 ⟨held, own, due⟩, (urgentAt_iff due).2 urgent⟩

/-! ### The order of the items (R174 step 1) -/

/-- R174 step 1: the order of a frame, in which the lower id decides between equals. -/
def Precedes (now : Word) (a b : SubId × Subscription) : Prop :=
  goesAhead now a.2 b.2 = true ∨ (goesAhead now b.2 a.2 = false ∧ a.1 < b.1)

/-- R174 step 1: the place of a due subscription, the higher the earlier: an urgent one by its wait, ahead of the others
by their priority. -/
def dueRank (now : Word) (x : Subscription) : Nat ×ₗ Nat :=
  toLex (if urgentAt now x then (1, waited now x) else (0, x.priority))

theorem goesAhead_iff_dueRank (now : Word) (a b : Subscription) :
    goesAhead now a b = true ↔ dueRank now b < dueRank now a := by
  unfold goesAhead dueRank
  cases urgentAt now a <;> cases urgentAt now b <;> simp [Prod.Lex.toLex_lt_toLex]

theorem goesAhead_eq_false_iff (now : Word) (a b : Subscription) :
    goesAhead now a b = false ↔ dueRank now a ≤ dueRank now b := by
  rw [← Bool.not_eq_true, goesAhead_iff_dueRank, not_lt]

theorem goesAhead_asymm {now : Word} {a b : Subscription} (h : goesAhead now a b = true) :
    goesAhead now b a = false :=
  (goesAhead_eq_false_iff now b a).2 ((goesAhead_iff_dueRank now a b).1 h).le

theorem goesAhead_of_not_goesAhead {now : Word} {a b c : Subscription} (h : goesAhead now a b = true)
    (k : goesAhead now c b = false) : goesAhead now a c = true :=
  (goesAhead_iff_dueRank now a c).2
    (((goesAhead_eq_false_iff now c b).1 k).trans_lt ((goesAhead_iff_dueRank now a b).1 h))

theorem Precedes.not_goesAhead {now : Word} {a b : SubId × Subscription} (h : Precedes now a b) :
    goesAhead now b.2 a.2 = false :=
  h.elim goesAhead_asymm And.left

theorem insertDue_eq_orderedInsert (now : Word) (x : SubId × Subscription) (ys : List (SubId × Subscription)) :
    insertDue now x ys = ys.orderedInsert (fun a b => goesAhead now a.2 b.2 = true) x := by
  induction ys with
  | nil => rfl
  | cons y rest ih => rw [insertDue, List.orderedInsert_cons, ih]

theorem insertDue_perm (now : Word) (x : SubId × Subscription) (ys : List (SubId × Subscription)) :
    (insertDue now x ys).Perm (x :: ys) := by
  rw [insertDue_eq_orderedInsert]
  exact List.perm_orderedInsert _ x ys

/-- A subscription of a higher id than those already in order goes to its place. -/
theorem insertDue_pairwise {now : Word} {x : SubId × Subscription} {ys : List (SubId × Subscription)}
    (ordered : ys.Pairwise (Precedes now)) (lower : ∀ y ∈ ys, y.1 < x.1) :
    (insertDue now x ys).Pairwise (Precedes now) := by
  induction ys with
  | nil => exact List.pairwise_singleton _ x
  | cons y rest ih =>
    obtain ⟨first, ordered⟩ := List.pairwise_cons.1 ordered
    obtain ⟨lowerHead, lower⟩ := List.forall_mem_cons.1 lower
    unfold insertDue
    split
    · next ahead =>
      refine List.pairwise_cons.2 ⟨List.forall_mem_cons.2 ⟨.inl ahead, fun z mem => .inl ?_⟩,
        List.pairwise_cons.2 ⟨first, ordered⟩⟩
      exact goesAhead_of_not_goesAhead ahead (first z mem).not_goesAhead
    · next behind =>
      refine List.pairwise_cons.2 ⟨fun z mem => ?_, ih ordered lower⟩
      rcases List.mem_cons.1 ((insertDue_perm now x rest).mem_iff.1 mem) with rfl | mem
      · exact .inr ⟨Bool.eq_false_iff.2 behind, lowerHead⟩
      · exact first z mem

theorem foldl_insertDue_perm (now : Word) (xs acc : List (SubId × Subscription)) :
    (xs.foldl (fun ys x => insertDue now x ys) acc).Perm (xs ++ acc) := by
  induction xs generalizing acc with
  | nil => exact .refl _
  | cons x rest ih =>
    exact (ih _).trans (((insertDue_perm now x acc).append_left rest).trans List.perm_middle)

theorem orderDue_perm (now : Word) (xs : List (SubId × Subscription)) : (orderDue now xs).Perm xs :=
  (foldl_insertDue_perm now xs []).trans (by rw [List.append_nil])

theorem foldl_insertDue_pairwise {now : Word} {xs acc : List (SubId × Subscription)}
    (rising : xs.Pairwise fun a b => a.1 < b.1) (ordered : acc.Pairwise (Precedes now))
    (lower : ∀ y ∈ acc, ∀ x ∈ xs, y.1 < x.1) :
    (xs.foldl (fun ys x => insertDue now x ys) acc).Pairwise (Precedes now) := by
  induction xs generalizing acc with
  | nil => exact ordered
  | cons x rest ih =>
    obtain ⟨first, rising⟩ := List.pairwise_cons.1 rising
    refine ih rising (insertDue_pairwise ordered fun y mem => lower y mem x List.mem_cons_self) fun y mem z later => ?_
    rcases List.mem_cons.1 ((insertDue_perm now x acc).mem_iff.1 mem) with rfl | mem
    · exact first z later
    · exact lower y mem z (List.mem_cons_of_mem x later)

/-- R174 step 1: a list in id order, put in the order of a frame. -/
theorem orderDue_pairwise {xs : List (SubId × Subscription)} (rising : xs.Pairwise fun a b => a.1 < b.1)
    (now : Word) : (orderDue now xs).Pairwise (Precedes now) :=
  foldl_insertDue_pairwise rising .nil nofun

theorem goesAhead_iff {now : Word} {x y : Subscription} (dueX : x.due = true) (dueY : y.due = true) :
    goesAhead now x y = true ↔
      (Urgent now x ∧ ¬Urgent now y) ∨ (Urgent now x ∧ Urgent now y ∧ waited now y < waited now x) ∨
        (¬Urgent now x ∧ ¬Urgent now y ∧ y.priority < x.priority) := by
  simp only [← urgentAt_iff dueX, ← urgentAt_iff dueY]
  unfold goesAhead
  cases urgentAt now x <;> cases urgentAt now y <;> simp

/-- R174 step 1: the order of a frame by urgency, wait, priority and id. -/
theorem Precedes.order {now : Word} {n k : SubId} {x y : Subscription} (h : Precedes now (n, x) (k, y))
    (dueX : x.due = true) (dueY : y.due = true) :
    (Urgent now x ∧ ¬Urgent now y) ∨
      (Urgent now x ∧ Urgent now y ∧ (waited now y < waited now x ∨ waited now y = waited now x ∧ n < k)) ∨
      (¬Urgent now x ∧ ¬Urgent now y ∧ (y.priority < x.priority ∨ y.priority = x.priority ∧ n < k)) := by
  rcases h with ahead | ⟨behind, lt⟩
  · rcases (goesAhead_iff dueX dueY).1 ahead with one | ⟨ux, uy, longer⟩ | ⟨ux, uy, higher⟩
    · exact .inl one
    · exact .inr (.inl ⟨ux, uy, .inl longer⟩)
    · exact .inr (.inr ⟨ux, uy, .inl higher⟩)
  · have lt : n < k := lt
    have behind := mt (goesAhead_iff dueY dueX).2 (Bool.eq_false_iff.1 behind)
    by_cases ux : Urgent now x <;> by_cases uy : Urgent now y <;> simp [ux, uy, lt] at behind ⊢ <;> omega

/-! ### What a frame leaves of the subscriptions (R174 step 4) -/

theorem sub_markSent (t : State) (item : SentItem) (n : SubId) :
    (markSent t item).sub n =
      if item.id = n then
        (t.sub n).map fun x => { x with lastSent := some item.reading.value, due := false, coalesced := false }
      else t.sub n := by
  unfold markSent
  split
  · next x held =>
    rw [State.sub_setSub]
    split
    · next same => rw [← same, held]; rfl
    · rfl
  · next empty =>
    split
    · next same => rw [← same, empty]; rfl
    · rfl

theorem sub_foldl_markSent_of_not_mem {items : List SentItem} {n : SubId} (out : n ∉ items.map SentItem.id)
    (t : State) : (items.foldl markSent t).sub n = t.sub n := by
  refine List.foldlRecOn items markSent (motive := fun u => u.sub n = t.sub n) rfl fun u same item mem => ?_
  rw [sub_markSent, if_neg fun e => out (List.mem_map.2 ⟨item, mem, e⟩), same]

/-- R174 step 4: each subscription that is sent is marked once, by its own item. -/
theorem sub_foldl_markSent_of_mem {items : List SentItem} (nodup : (items.map SentItem.id).Nodup) {item : SentItem}
    (mem : item ∈ items) (t : State) :
    (items.foldl markSent t).sub item.id =
      (t.sub item.id).map fun x =>
        { x with lastSent := some item.reading.value, due := false, coalesced := false } := by
  induction items generalizing t with
  | nil => cases mem
  | cons first rest ih =>
    obtain ⟨fresh, nodup⟩ := List.nodup_cons.1 nodup
    rw [List.foldl_cons]
    rcases List.mem_cons.1 mem with rfl | mem
    · rw [sub_foldl_markSent_of_not_mem fresh, sub_markSent, if_pos rfl]
    · have other : first.id ≠ item.id := fun e => fresh (e ▸ List.mem_map_of_mem mem)
      rw [ih nodup mem, sub_markSent, if_neg other]

theorem foldl_markSent_subsOnly (items : List SentItem) (s : State) :
    items.foldl markSent s = { s with subs := (items.foldl markSent s).subs } := by
  refine List.foldlRecOn items markSent (motive := fun t => t = { s with subs := t.subs }) (Eq.refl s)
    fun t only item _ => ?_
  have turn : markSent t item = { t with subs := (markSent t item).subs } := by
    unfold markSent
    split <;> rfl
  rw [turn, only]

/-! ### Telemetry frames (R174) -/

/-- R174 steps 1 and 2: the subscriptions that go into a frame, in their order. -/
def framed (s : State) (link : Source) : List (SubId × Subscription) :=
  (orderDue s.time (dueList s link)).take 12

theorem buildFrame_eq (link : Source) (s : State) :
    buildFrame link s =
      (((framed s link).map (sentItem s)).foldl markSent s, ⟨s.time, (framed s link).map (sentItem s)⟩) := rfl

theorem ids_framed (s : State) (link : Source) :
    ((framed s link).map (sentItem s)).map SentItem.id = (framed s link).map Prod.fst := by
  rw [List.map_map]
  rfl

theorem length_framed (s : State) (link : Source) : (framed s link).length = min 12 (dueList s link).length := by
  rw [framed, List.length_take, (orderDue_perm _ _).length_eq]

theorem due_of_mem_framed {s : State} {link : Source} {a : SubId × Subscription} (mem : a ∈ framed s link) :
    Due s link a.1 a.2 :=
  mem_dueList.1 ((orderDue_perm _ _).mem_iff.1 (List.mem_of_mem_take mem))

theorem framed_pairwise (s : State) (link : Source) : (framed s link).Pairwise (Precedes s.time) :=
  (orderDue_pairwise (dueList_pairwise_lt s link) s.time).sublist (List.take_sublist 12 _)

theorem nodup_framed (s : State) (link : Source) : ((framed s link).map Prod.fst).Nodup := by
  have ids : ((dueList s link).map Prod.fst).Nodup :=
    List.pairwise_map.2 ((dueList_pairwise_lt s link).imp fun lt => Fin.ne_of_lt lt)
  exact (((orderDue_perm s.time (dueList s link)).map Prod.fst).nodup_iff.2 ids).sublist
    ((List.take_sublist 12 _).map Prod.fst)

/-- R174 step 2: what goes into a frame stands ahead of what is left out. -/
theorem precedes_of_left_out {s : State} {link : Source} {n : SubId} {x : Subscription} (due : Due s link n x)
    (out : (n, x) ∉ framed s link) {a : SubId × Subscription} (mem : a ∈ framed s link) :
    Precedes s.time a (n, x) := by
  have ordered := orderDue_pairwise (dueList_pairwise_lt s link) s.time
  have listed := (orderDue_perm s.time _).mem_iff.2 (mem_dueList.2 due)
  rw [← List.take_append_drop 12 (orderDue s.time (dueList s link))] at ordered listed
  exact (List.pairwise_append.1 ordered).2.2 a mem (n, x) ((List.mem_append.1 listed).resolve_left out)

/-! ### FRAME_START (R181) -/

theorem canStart_iff (s : State) (link : Source) :
    CanStart s link ↔ s.startsBytes link = true ∧ (s.link link).tx = none := by
  rw [startsBytes_iff, CanStart]
  tauto

theorem exec_frameStart_idle {s : State} {link : Source} (cannot : ¬CanStart s link) :
    exec (.frameStart link) s = .next s :=
  next_congr (if_neg (mt (canStart_iff s link).2 cannot))

theorem exec_frameStart {s t : State} {link : Source} (can : CanStart s link) (chosen : chooseFrame link s = t) :
    exec (.frameStart link) s = .next t :=
  next_congr ((if_pos ((canStart_iff s link).1 can)).trans chosen)

/-- R174: the frame of a telemetry send is the one built, on a link that is as it was. -/
theorem sendTelemetry_eq (link : Source) (s : State) :
    sendTelemetry link s =
      (buildFrame link s).1.setLink link
        { s.link link with tx := some (.telemetry (buildFrame link s).2), begun := 1 } := by
  have same : (buildFrame link s).1.link link = s.link link := by
    rw [buildFrame_eq, foldl_markSent_subsOnly]
    cases link <;> rfl
  rw [← same]
  rfl

theorem chooseFrame_reply {s : State} {link : Source} {r : WaitingReply} {rest : List WaitingReply}
    (first : (s.link link).waiting = r :: rest) :
    chooseFrame link s =
      s.setLink link { s.link link with waiting := rest, tx := some (.reply r), begun := 1 } := by
  simp only [chooseFrame, first]
  rfl

theorem chooseFrame_urgent {s : State} {link : Source} (noReply : (s.link link).waiting = [])
    (urgent : UrgentDue s link) : chooseFrame link s = sendTelemetry link s := by
  simp only [chooseFrame, noReply]
  exact if_pos ((anyUrgent_iff s link).2 urgent)

theorem chooseFrame_notice {s : State} {link : Source} {n : Notice} {rest : List Notice}
    (noReply : (s.link link).waiting = []) (calm : ¬UrgentDue s link) (first : (s.link link).notices = n :: rest) :
    chooseFrame link s =
      s.setLink link { s.link link with notices := rest, tx := some (.notice n), begun := 1 } := by
  simp only [chooseFrame, noReply, first]
  exact if_neg (mt (anyUrgent_iff s link).1 calm)

/-- R181: with no reply and no notice to send, telemetry goes out while a subscription is due. -/
theorem chooseFrame_rest {s : State} {link : Source} (noReply : (s.link link).waiting = [])
    (empty : (s.link link).notices = []) :
    chooseFrame link s = if dueList s link = [] then s else sendTelemetry link s := by
  simp only [chooseFrame, noReply, empty]
  split
  · next urgent =>
    obtain ⟨n, x, due, -⟩ := (anyUrgent_iff s link).1 urgent
    exact (if_neg fun nil => dueList_eq_nil_iff.1 nil ⟨n, x, due⟩).symm
  · rfl

/-- Settles O13: the choice at a frame start by what waits, and a frame as the first twelve of the due list in its
order. -/
theorem frameStartSendsFrames : Obligations.FrameStartSendsFrames := by
  unfold Obligations.FrameStartSendsFrames
  refine ⟨fun s link => ⟨exec_frameStart_idle, fun r rest can first => exec_frameStart can (chooseFrame_reply first),
    fun can noReply urgent => ?_, fun n rest can noReply calm first =>
      exec_frameStart can (chooseFrame_notice noReply calm first),
    fun can noReply empty due => ?_, fun can noReply empty noneDue => ?_⟩, fun s link => ?_⟩
  · exact exec_frameStart can ((chooseFrame_urgent noReply urgent).trans (sendTelemetry_eq link s))
  · exact exec_frameStart can ((chooseFrame_rest noReply empty).trans
      ((if_neg fun nil => dueList_eq_nil_iff.1 nil due).trans (sendTelemetry_eq link s)))
  · exact exec_frameStart can ((chooseFrame_rest noReply empty).trans (if_pos (dueList_eq_nil_iff.2 noneDue)))
  · have nodup : (((framed s link).map (sentItem s)).map SentItem.id).Nodup := ids_framed s link ▸ nodup_framed s link
    rw [buildFrame_eq]
    refine ⟨rfl, (List.length_map _).trans (length_framed s link), nodup, fun item mem => ?_,
      fun n out => sub_foldl_markSent_of_not_mem out s, ?_, fun n x due out k mem => ?_,
      foldl_markSent_subsOnly _ s⟩
    · obtain ⟨⟨n, x⟩, chosen, rfl⟩ := List.mem_map.1 mem
      obtain ⟨held, own, isDue⟩ := due_of_mem_framed chosen
      refine ⟨x, ⟨held, own, isDue⟩, rfl, rfl, urgentAt_iff isDue, (sub_foldl_markSent_of_mem nodup mem s).trans ?_⟩
      exact congrArg (Option.map _) held
    · rw [ids_framed, List.pairwise_map]
      refine (framed_pairwise s link).imp_of_mem fun {a b} memA memB precedes => ?_
      obtain ⟨heldA, -, dueA⟩ := due_of_mem_framed memA
      obtain ⟨heldB, -, dueB⟩ := due_of_mem_framed memB
      exact ⟨a.2, b.2, heldA, heldB, precedes.order dueA dueB⟩
    · dsimp only at out mem
      rw [ids_framed] at out mem
      obtain ⟨⟨k, y⟩, chosen, rfl⟩ := List.mem_map.1 mem
      obtain ⟨heldK, -, dueK⟩ := due_of_mem_framed chosen
      have left : (n, x) ∉ framed s link := fun inside => out (List.mem_map.2 ⟨_, inside, rfl⟩)
      obtain ⟨held, own, isDue⟩ := due
      exact ⟨y, x, heldK, held, (precedes_of_left_out ⟨held, own, isDue⟩ left chosen).order dueK isDue⟩

end Sys2Proof.Machine

namespace Sys2Proof.Machine

open Sys2Proof.Safety

/-! ### PERIOD_EXPIRY (R171) -/

theorem expired_due {x : Subscription} (due : x.due = true) (now : Word) (value : Int) :
    expired now value x = { x with periodLeft := x.period, coalesced := true } :=
  if_pos due

/-- R171: a subscription that is not due falls due when its value is worth sending. -/
theorem expired_worthSending {x : Subscription} (idle : x.due = false) {value : Int}
    (worth : worthSending x value = true) (now : Word) :
    expired now value x = { x with periodLeft := x.period, due := true, dueSince := now } :=
  (if_neg (Bool.eq_false_iff.1 idle)).trans (if_pos worth)

theorem expired_not_worthSending {x : Subscription} (idle : x.due = false) {value : Int}
    (same : worthSending x value = false) (now : Word) :
    expired now value x = { x with periodLeft := x.period } :=
  (if_neg (Bool.eq_false_iff.1 idle)).trans (if_neg (Bool.eq_false_iff.1 same))

theorem worthSending_without_last {x : Subscription} (bare : x.delta = none ∨ x.lastSent = none) (value : Int) :
    worthSending x value = true := by
  unfold worthSending
  split
  · rfl
  · rfl
  · next d last delta sent =>
    rcases bare with noDelta | noLast
    · exact nomatch noDelta.symm.trans delta
    · exact nomatch noLast.symm.trans sent

theorem worthSending_delta {x : Subscription} {d : Nat} {last : Int} (delta : x.delta = some d)
    (sent : x.lastSent = some last) (value : Int) :
    worthSending x value = decide (d ≤ valueChange x.item value last) := by
  simp only [worthSending, delta, sent]

theorem periodExpiry_empty {s : State} {n : SubId} (empty : s.sub n = none) : periodExpiry n s = s := by
  simp only [periodExpiry, empty]

theorem periodExpiry_held {s : State} {n : SubId} {x : Subscription} (held : s.sub n = some x) :
    periodExpiry n s = s.setSub n (some (expired s.time (readItem s x.item).value x)) := by
  simp only [periodExpiry, held]

theorem exec_periodExpiry {s : State} {n : SubId} {x y : Subscription} (held : s.sub n = some x)
    (turn : expired s.time (readItem s x.item).value x = y) :
    exec (.periodExpiry n) s = .next (s.setSub n (some y)) :=
  next_congr (turn ▸ periodExpiry_held held)

/-! ### SUBSCRIBE (R169) -/

theorem subscribe_noItem {f : SubscribeFields} (outside : ∀ item, f.item ≠ namedItem item) (src : Source) (s : State) :
    subscribe src f s = (s, Reply.refuse .badValue) := by
  simp only [subscribe, (checkItem_eq_none f.item).2 outside]

theorem subscribe_badPriority {f : SubscribeFields} (high : 7 < f.priority) (src : Source) (s : State) :
    subscribe src f s = (s, Reply.refuse .badValue) := by
  unfold subscribe
  split
  · rfl
  · exact if_pos high

section Offered

variable {f : SubscribeFields} {item : Item} (named : f.item = namedItem item) (low : f.priority ≤ 7) {s : State}
include named low

/-- R169 steps 2 and 3: an item without a source, or a value that its channel does not have. -/
theorem subscribe_refused {st : Status} (refused : itemRefusal s item = some st) (src : Source) :
    subscribe src f s = (s, Reply.refuse st) := by
  simp only [subscribe, named, checkItem_namedItem, if_neg (Nat.not_lt.2 low), refused]

theorem subscribe_full (readable : itemRefusal s item = none) (full : ∀ n, s.sub n ≠ none) (src : Source) :
    subscribe src f s = (s, Reply.refuse .full) := by
  have taken : (allSubs.find? fun n => (s.sub n).isNone) = none :=
    List.find?_eq_none.2 fun n _ => by simpa using full n
  simp only [subscribe, named, checkItem_namedItem, if_neg (Nat.not_lt.2 low), readable, taken]

end Offered

/-- The lowest number that meets a test is the first that a search in number order finds. -/
theorem find?_rising {k : Nat} {all : List (Fin k)} (rising : all.Pairwise (· < ·)) {test : Fin k → Bool} {n : Fin k}
    (mem : n ∈ all) (here : test n = true) (lowest : ∀ m, m < n → test m = false) : all.find? test = some n := by
  obtain ⟨before, after, rfl⟩ := List.append_of_mem mem
  refine List.find?_eq_some_iff_append.2 ⟨here, before, after, rfl, fun m earlier => ?_⟩
  rw [lowest m ((List.pairwise_append.1 rising).2.2 m earlier n List.mem_cons_self)]
  rfl

theorem State.setSub_setSub (s : State) (n : SubId) (x y : Option Subscription) :
    (s.setSub n x).setSub n y = s.setSub n y := by
  simp [State.setSub]

theorem clampLatency_eq (n : Nat) : clampLatency n = if n = 0 then 0 else max 10 (min 2000 n) := by
  rw [clampLatency, clampNat_eq (by decide)]

theorem subscribeClamped_eq (f : SubscribeFields) :
    subscribeClamped f =
      decide (f.period < 10 ∨ 5000 < f.period ∨ (f.latency ≠ 0 ∧ (f.latency < 10 ∨ 2000 < f.latency)) ∨
        2000000000 < f.delta) := by
  rw [Bool.eq_iff_iff, decide_eq_true_eq]
  simp only [subscribeClamped, Bool.or_eq_true, Bool.and_eq_true, outOfRange_iff, decide_eq_true_eq]
  omega

/-- R169: the subscription that a SUBSCRIBE makes, after its first expiry. -/
def firstDue (src : Source) (f : SubscribeFields) (item : Item) (now : Word) : Subscription :=
  let period := max 10 (min 5000 f.period)
  { link := src, item := item, period := period
    latency := if f.latency = 0 then 0 else max 10 (min 2000 f.latency), priority := f.priority
    delta := if f.delta = 0 then none else some (min 2000000000 f.delta)
    lastSent := none, due := true, dueSince := now, coalesced := false, periodLeft := period }

/-- R169: SUBSCRIBE takes the lowest empty entry. -/
theorem subscribe_placed {f : SubscribeFields} {item : Item} (named : f.item = namedItem item) (low : f.priority ≤ 7)
    {s : State} (readable : itemRefusal s item = none) {n : SubId} (empty : s.sub n = none)
    (lowest : ∀ k, k < n → s.sub k ≠ none) (src : Source) :
    subscribe src f s =
      (s.setSub n (some (firstDue src f item s.time)),
        Reply.ok (subscribeClamped f)
          (.subscribed n (firstDue src f item s.time).period (firstDue src f item s.time).latency)) := by
  have first : (allSubs.find? fun n => (s.sub n).isNone) = some n :=
    find?_rising allSubs_pairwise_lt (mem_allSubs n) (by rw [empty]; rfl) fun k lt =>
      by simpa [Option.isSome_iff_ne_none] using lowest k lt
  simp only [subscribe, named, checkItem_namedItem, if_neg (Nat.not_lt.2 low), readable, first]
  rw [periodExpiry_held (State.sub_setSub_self s n _),
    expired_worthSending rfl (worthSending_without_last (.inr rfl) _), clampNat_eq (by decide), clampLatency_eq,
    State.setSub_setSub]
  rfl

theorem itemRefusal_reserved (s : State) (src : Source) (i : Fin 8) (kind tag : Byte) (item : Item) :
    itemRefusal (reserved s src i kind tag) item = itemRefusal s item := by
  cases item <;> simp only [itemRefusal, reserved_channel]

theorem itemRefusal_noSource {s : State} {item : Item} {ch : ChannelId} {idx : Fin 8} (named : item = .channel ch idx)
    (unmapped : (s.channel ch).state = .unmapped) : itemRefusal s item = some .noSource := by
  subst named
  exact if_pos unmapped

theorem itemRefusal_badValue {s : State} {item : Item} {ch : ChannelId} {idx : Fin 8} (named : item = .channel ch idx)
    (mapped : (s.channel ch).state ≠ .unmapped) (out : (s.channel ch).valueCount ≤ idx.val) :
    itemRefusal s item = some .badValue := by
  subst named
  exact (if_neg mapped).trans (if_pos out)

theorem itemRefusal_none {s : State} {item : Item} (readable : ∀ ch idx, item = .channel ch idx →
    (s.channel ch).state ≠ .unmapped ∧ idx.val < (s.channel ch).valueCount) : itemRefusal s item = none := by
  cases item with
  | channel ch idx =>
    obtain ⟨mapped, counted⟩ := readable ch idx rfl
    exact (if_neg mapped).trans (if_neg (Nat.not_le.2 counted))
  | _ => rfl

/-! ### UNSUBSCRIBE (R170) -/

theorem unsubscribe_out {n : Nat} (out : 24 ≤ n) (src : Source) (s : State) :
    unsubscribe src n s = (s, Reply.refuse .badValue) := by
  simp only [unsubscribe, index_of_le out]

theorem unsubscribe_notOwn {s : State} {src : Source} {n : SubId}
    (other : s.sub n = none ∨ ∃ x, s.sub n = some x ∧ x.link ≠ src) :
    unsubscribe src n.val s = (s, Reply.refuse .badValue) := by
  rcases other with empty | ⟨x, held, foreign⟩
  · simp only [unsubscribe, index_val, empty]
  · simp only [unsubscribe, index_val, held, if_neg foreign]

theorem unsubscribe_own {s : State} {src : Source} {n : SubId} {x : Subscription} (held : s.sub n = some x)
    (own : x.link = src) : unsubscribe src n.val s = (s.setSub n none, Reply.ok false .empty) := by
  simp only [unsubscribe, index_val, held, if_pos own]

/-! ### Requests of the subscription table -/

theorem exec_subscribe {s t : State} {src : Source} {i : Fin 8} (h : Accepts s src i) {tag : Byte}
    {f : SubscribeFields} {r : Reply}
    (e : subscribe src f (reserved s src i 0x48#8 tag) = (reserved t src i 0x48#8 tag, r)) :
    exec (.subscribe src tag f) s = .next (answered t src i 0x48#8 tag r) :=
  next_congr (serve_answered h .subscribe tag nofun e)

theorem exec_unsubscribe {s t : State} {src : Source} {i : Fin 8} (h : Accepts s src i) {tag : Byte} {n : Nat}
    {r : Reply} (e : unsubscribe src n (reserved s src i 0x49#8 tag) = (reserved t src i 0x49#8 tag, r)) :
    exec (.unsubscribe src tag n) s = .next (answered t src i 0x49#8 tag r) :=
  next_congr (serve_answered h .unsubscribe tag nofun e)

/-! ### Items as they are read (R173) -/

/-- R173: the reading of a channel's value. -/
theorem readChannel_eq (now : Word) (c : Channel) (idx : Fin 8) :
    readChannel now c idx =
      { value := if c.state ≠ .unmapped ∧ idx.val < c.valueCount then c.values[idx] else 0
        fresh := decide ((c.state ≠ .unmapped ∧ idx.val < c.valueCount) ∧ c.fresh = true), starved := false
        age := if c.stamp = 0 then 0 else min 65535 (now - c.stamp).toNat } := by
  have age : min 65535 (channelAge now c) = if c.stamp = 0 then 0 else min 65535 (now - c.stamp).toNat := by
    unfold channelAge
    split <;> rfl
  simp [readChannel, age]

/-- Settles O55: SUBSCRIBE by its checks in their order, UNSUBSCRIBE by what its entry holds, an expiry by whether the
subscription is due and its value worth sending, and the items by their reading. -/
theorem subscriptionsComeAndFallDue : Obligations.SubscriptionsComeAndFallDue := by
  unfold Obligations.SubscriptionsComeAndFallDue
  refine ⟨fun s src i tag f h => ⟨fun bad => exec_subscribe h ?_, fun item named low =>
      ⟨fun ch idx channel unmapped => exec_subscribe h (subscribe_refused named low ?_ src),
        fun ch idx channel mapped out => exec_subscribe h (subscribe_refused named low ?_ src),
        fun readable => ?_⟩⟩,
    fun s src i tag h => ⟨fun n out => exec_unsubscribe h (unsubscribe_out out src _),
      fun n => ⟨fun other => exec_unsubscribe h (unsubscribe_notOwn (by simpa only [reserved_sub] using other)),
        fun x held own => exec_unsubscribe h ?_⟩⟩,
    fun s n => ⟨fun empty => next_congr (periodExpiry_empty empty), fun x held =>
      ⟨fun due => exec_periodExpiry held (expired_due due _ _),
        fun idle bare => exec_periodExpiry held (expired_worthSending idle (worthSending_without_last bare _) _),
        fun d last idle delta sent => ?_⟩⟩,
    fun s => ⟨fun ch idx => readChannel_eq s.time (s.channel ch) idx, fun m => ⟨rfl, rfl, rfl, rfl⟩, fun v => rfl,
      fun p => rfl, rfl⟩⟩
  · rcases bad with outside | high
    · exact subscribe_noItem outside src _
    · exact subscribe_badPriority high src _
  · rw [itemRefusal_reserved]
    exact itemRefusal_noSource channel unmapped
  · rw [itemRefusal_reserved]
    exact itemRefusal_badValue channel mapped out
  · have taken : itemRefusal (reserved s src i 0x48#8 tag) item = none :=
      (itemRefusal_reserved s src i _ tag item).trans (itemRefusal_none readable)
    refine ⟨fun full => exec_subscribe h (subscribe_full named low taken (by simpa only [reserved_sub] using full) src),
      fun n empty lowest => exec_subscribe h ?_⟩
    rw [subscribe_placed named low taken (by rwa [reserved_sub]) (by simpa only [reserved_sub] using lowest),
      subscribeClamped_eq, reserved_setSub, reserved_time]
    rfl
  · rw [unsubscribe_own (by rwa [reserved_sub]) own, reserved_setSub]
  · refine ⟨fun moved => exec_periodExpiry held (expired_worthSending idle ?_ _),
      fun within => exec_periodExpiry held (expired_not_worthSending idle ?_ _)⟩
    · exact (worthSending_delta delta sent _).trans (decide_eq_true moved)
    · exact (worthSending_delta delta sent _).trans (decide_eq_false (Nat.not_le.2 within))

end Sys2Proof.Machine

namespace Sys2Proof.Machine

open Sys2Proof.Safety

/-! ### The blocks' acts keep every reply slot (R178, R179) -/

/-- R179: from one state to the next, every reply slot is held by the request that held it. -/
def SameSlots (s t : State) : Prop := ∀ src, (t.link src).slots = (s.link src).slots

theorem SameSlots.refl (s : State) : SameSlots s s := fun _ => rfl

theorem SameSlots.trans {a b c : State} (h : SameSlots a b) (k : SameSlots b c) : SameSlots a c := fun src =>
  (k src).trans (h src)

theorem sameSlots_setClaim (s : State) (r : Resource) (c : Claim) : SameSlots s (s.setClaim r c) := by
  cases r <;> exact .refl s

theorem sameSlots_ite {p : Prop} [Decidable p] {s a b : State} (h : SameSlots s a) (k : SameSlots s b) :
    SameSlots s (if p then a else b) := by
  split
  · exact h
  · exact k

theorem sameSlots_foldl {α : Type} {f : State → α → State} (turn : ∀ t a, SameSlots t (f t a)) (xs : List α)
    (s : State) : SameSlots s (xs.foldl f s) := fun src =>
  foldl_keeps (get := fun t => (t.link src).slots) (fun t a => turn t a src) xs s

/-- Work that is quiet but for the owner records keeps the slots. -/
theorem sameSlots_of_withClaims {s t : State} (work : Quiet s (withClaims t s)) : SameSlots s t := fun src =>
  (congrArg LinkUnit.slots (link_withClaims t s src)).symm.trans (work.slots src)

theorem sameSlots_ownerOnly {act : State → State × Reply} (keeps : ∀ s, SameSlots s (act s).1) (r : Resource)
    (src : Source) (s : State) : SameSlots s (ownerOnly r src act s).1 := by
  have acted := keeps s
  fun_cases ownerOnly r src act s
  · next e _ =>
    rw [e] at acted
    exact acted.trans (sameSlots_setClaim _ r _)
  · next e _ => rwa [e] at acted
  · exact .refl s

theorem sameSlots_motorRequest {act : MotorId → State → State × Reply} (keeps : ∀ m s, SameSlots s (act m s).1)
    (n : Nat) (src : Source) (s : State) : SameSlots s (motorRequest n src act s).1 := by
  fun_cases motorRequest n src act s
  · exact .refl s
  · exact sameSlots_ownerOnly (keeps _) _ src s

theorem sameSlots_voiceRequest {act : VoiceId → State → State × Reply} (keeps : ∀ v s, SameSlots s (act v s).1)
    (n : Nat) (src : Source) (s : State) : SameSlots s (voiceRequest n src act s).1 := by
  fun_cases voiceRequest n src act s
  · exact .refl s
  · exact sameSlots_ownerOnly (keeps _) _ src s

theorem sameSlots_claimRequest (src : Source) (f : ClaimFields) (s : State) :
    SameSlots s (claimRequest src f s).1 := by
  fun_cases claimRequest src f s
  · exact .refl s
  · exact .refl s
  · exact sameSlots_foldl (fun t r => sameSlots_setClaim t r _) _ s

theorem sameSlots_releaseRequest (src : Source) (set : List Resource) (s : State) :
    SameSlots s (releaseRequest src set s).1 := by
  fun_cases releaseRequest src set s
  · exact .refl s
  · exact sameSlots_of_withClaims (quiet_withClaims_foldl (quiet_endClaimsOf src .released) _ s)

theorem sameSlots_renewRequest (src : Source) (set : List Resource) (s : State) :
    SameSlots s (renewRequest src set s).1 := by
  fun_cases renewRequest src set s
  · exact .refl s
  · exact sameSlots_foldl (fun t r => sameSlots_ite (sameSlots_setClaim t r _) (.refl t)) _ s

theorem sameSlots_takeRequest (f : ClaimFields) (s : State) : SameSlots s (takeRequest f s).1 := by
  fun_cases takeRequest f s
  · exact .refl s
  · exact sameSlots_of_withClaims (quiet_withClaims_foldl (quiet_takeOne _) _ s)

theorem sameSlots_clearFault (m : MotorId) (s : State) : SameSlots s (clearFault m s).1 := by
  fun_cases clearFault m s
  · exact (quiet_enterRest m .idle s).slots
  · exact .refl s

theorem sameSlots_haltMotor (a : Coded StopAction) (m : MotorId) (s : State) : SameSlots s (haltMotor a m s).1 := by
  fun_cases haltMotor a m s
  · exact .refl s
  · exact (quiet_afterEvents (quiet_stopAction m _ _ s)).slots

theorem sameSlots_budgetSet (x : Int) (s : State) : SameSlots s (budgetSet x s).1 := by
  show SameSlots s (setBudget (clampNat 500 8000 x) s).1
  rcases Nat.lt_or_ge (clampNat 500 8000 x) s.governor.used with exceeded | covers
  · rw [setBudget_exceeded exceeded, scaledDown_frame s]
    exact .refl s
  · rw [setBudget_covers covers]
    exact .refl s

theorem sameSlots_mapSet (f : MapFields) (s : State) : SameSlots s (mapSet f s).1 := by
  fun_cases mapSet f s
  case case5 => exact (calm_mapChannel _ _ s).slots
  all_goals exact .refl s

theorem sameSlots_mapClear (n : Nat) (s : State) : SameSlots s (mapClear n s).1 := by
  fun_cases mapClear n s
  case case1 => exact .refl s
  case case2 => exact .refl s
  case case3 => exact .refl s
  case case4 ch _ _ => exact (calm_channelNotice ch .unmapped .cleared s).slots
  all_goals
    dsimp only
    exact (calm_clearChannel _ s).slots

theorem sameSlots_watchSet (src : Source) (f : WatchFields) (s : State) : SameSlots s (watchSet src f s).1 := by
  fun_cases watchSet src f s
  case case3 ch idx kind _ _ _ _ _ => fun_cases placeWatch src f ch idx kind s <;> exact .refl s
  all_goals exact .refl s

theorem sameSlots_playRequest (cue : Nat) (v : VoiceId) (s : State) : SameSlots s (playRequest cue v s).1 := by
  fun_cases playRequest cue v s
  · exact .refl s
  · exact .refl s
  · exact (quiet_playVoice quiet_react v _ s).slots

theorem sameSlots_stopRequest (o : Coded FadeOption) (v : VoiceId) (s : State) :
    SameSlots s (stopRequest o v s).1 := by
  fun_cases stopRequest o v s
  · exact .refl s
  · exact (quiet_stopVoice quiet_react v _ s).slots

theorem sameSlots_voiceGain (x : Int) (v : VoiceId) (s : State) : SameSlots s (voiceGain x v s).1 :=
  have set : SameSlots s (s.modVoice v fun vo => { vo with level := clampNat 0 1024 x }) := .refl s
  sameSlots_ite (set.trans (quiet_retarget v _).slots) set

theorem sameSlots_subscribe (src : Source) (f : SubscribeFields) (s : State) :
    SameSlots s (subscribe src f s).1 := by
  have expiry (n : SubId) (t : State) : SameSlots t (periodExpiry n t) := by
    fun_cases periodExpiry n t <;> exact .refl t
  fun_cases subscribe src f s
  case case5 n _ _ _ _ _ => exact expiry n _
  all_goals exact .refl s

/-- R178, R179: what a block does with a request frees no reply slot and gives none to another request. -/
theorem sameSlots_act {src : Source} {k : RequestKind} {act : Fin 8 → State → State × Option Reply}
    (acts : ActsOn src k act) (i : Fin 8) (s : State) : SameSlots s (act i s).1 := by
  cases acts with
  | ident => exact .refl s
  | reset => exact .refl s
  | claim f => exact sameSlots_claimRequest src f s
  | release set => exact sameSlots_releaseRequest src set s
  | renew set => exact sameSlots_renewRequest src set s
  | take f => exact sameSlots_takeRequest f s
  | motorSet n f => exact sameSlots_motorRequest (fun m t => by fun_cases motorSet f m t <;> exact .refl t) n src s
  | motorRead n => show SameSlots s (motorRead n s).1; fun_cases motorRead n s <;> exact .refl s
  | zero n x => exact sameSlots_motorRequest (fun m t => by fun_cases zeroMotor x m t <;> exact .refl t) n src s
  | clearFault n => exact sameSlots_motorRequest sameSlots_clearFault n src s
  | seg n r => exact sameSlots_motorRequest (fun m t => by fun_cases segMotor r m t <;> exact .refl t) n src s
  | halt n a => exact sameSlots_motorRequest (sameSlots_haltMotor a) n src s
  | budgetSet x => exact sameSlots_budgetSet x s
  | budgetRead => exact .refl s
  | chainRestart port o => exact (steady_chainRestart port o s).slots
  | chainSet port f => exact (steady_chainSet port f s).slots
  | chainRead port => show SameSlots s (chainRead port s).1; fun_cases chainRead port s <;> exact .refl s
  | moduleRead port pos =>
    show SameSlots s (moduleRead port pos s).1; fun_cases moduleRead port pos s <;> exact .refl s
  | modulePageWrite port pos page b => exact (steady_pageRequest src port pos page (some b) i s).slots
  | modulePageRead port pos page => exact (steady_pageRequest src port pos page none i s).slots
  | mapSet f => exact sameSlots_mapSet f s
  | mapClear n => exact sameSlots_mapClear n s
  | channelRead n => show SameSlots s (channelRead n s).1; fun_cases channelRead n s <;> exact .refl s
  | watchSet f => exact sameSlots_watchSet src f s
  | watchClear n => show SameSlots s (watchClear src n s).1; fun_cases watchClear src n s <;> exact .refl s
  | reactSet f => show SameSlots s (reactSet src f s).1; fun_cases reactSet src f s <;> exact .refl s
  | reactClear n => show SameSlots s (reactClear src n s).1; fun_cases reactClear src n s <;> exact .refl s
  | reactRead x => show SameSlots s (reactRead x s).1; fun_cases reactRead x s <;> exact .refl s
  | windowSet f => show SameSlots s (windowSet f s).1; fun_cases windowSet f s <;> exact .refl s
  | storeWrite base bytes =>
    show SameSlots s (storeWrite src base bytes s).1; fun_cases storeWrite src base bytes s <;> exact .refl s
  | storeRead base count =>
    show SameSlots s (storeRead src base count s).1; fun_cases storeRead src base count s <;> exact .refl s
  | clipDefine f => show SameSlots s (clipDefine src f s).1; fun_cases clipDefine src f s <;> exact .refl s
  | clipRemove n => show SameSlots s (clipRemove src n s).1; fun_cases clipRemove src n s <;> exact .refl s
  | cueSet f => show SameSlots s (cueSet src f s).1; fun_cases cueSet src f s <;> exact .refl s
  | cueClear n => show SameSlots s (cueClear src n s).1; fun_cases cueClear src n s <;> exact .refl s
  | play n cue => exact sameSlots_voiceRequest (sameSlots_playRequest cue) n src s
  | stop n o => exact sameSlots_voiceRequest (sameSlots_stopRequest o) n src s
  | voiceGain n x => exact sameSlots_voiceRequest (sameSlots_voiceGain x) n src s
  | masterSet x => exact .refl s
  | subscribe f => exact sameSlots_subscribe src f s
  | unsubscribe n => show SameSlots s (unsubscribe src n s).1; fun_cases unsubscribe src n s <;> exact .refl s

/-! ### Every accepted request is answered (R178, R179) -/

/-- R179: the reply to the request in slot `i` waits, last of the link's replies, for the request's kind and TAG. -/
def ReplyWaitsLast (t : State) (src : Source) (i : Fin 8) (kind tag : Byte) : Prop :=
  ∃ r, (t.link src).slots[i] = some ⟨kind, tag⟩ ∧ (t.link src).waiting.getLast? = some ⟨i, kind + 0x80#8, tag, r⟩

theorem replyWaitsLast_post {s : State} {src : Source} {i : Fin 8} {kind tag : Byte}
    (held : (s.link src).slots[i] = some ⟨kind, tag⟩) (r : Reply) :
    ReplyWaitsLast (s.post src i r) src i kind tag := by
  rw [State.post_reserved r held]
  refine ⟨r, ?_, ?_⟩
  · rw [State.link_setLink_self]
    exact held
  · rw [State.link_setLink_self]
    exact List.getLast?_concat

theorem replyWaitsLast_answered (s : State) (src : Source) (i : Fin 8) (kind tag : Byte) (r : Reply) :
    ReplyWaitsLast (answered s src i kind tag r) src i kind tag := by
  rw [← post_reserved_eq_answered]
  exact replyWaitsLast_post (slots_reserved s src i kind tag) r

/-- R88, R89: the page requests alone can be answered later than they are taken. -/
theorem ActsOn.answers_at_once {src : Source} {k : RequestKind} {act : Fin 8 → State → State × Option Reply}
    (acts : ActsOn src k act) (write : k ≠ .modulePageWrite) (read : k ≠ .modulePageRead) : ∃ f, act = now f := by
  cases acts with
  | modulePageWrite => exact absurd rfl write
  | modulePageRead => exact absurd rfl read
  | _ => exact ⟨_, rfl⟩

/-- R178, R179: a request that its block answers at once has its reply waiting, whether or not its sender may make
it. -/
theorem serve_replyWaitsLast {s : State} {src : Source} {i : Fin 8} (h : Accepts s src i)
    {act : State → State × Reply} (keeps : ∀ t, SameSlots t (act t).1) (k : RequestKind) (tag : Byte) :
    ReplyWaitsLast (serveLater k src tag (now act) s) src i (RequestKind.code k) tag := by
  by_cases permitted : RequestKind.programOnly k = true → src = .program
  · rw [serveLater_accepted h k tag _ permitted]
    refine replyWaitsLast_post ?_ _
    rw [keeps (reserved s src i (RequestKind.code k) tag) src]
    exact slots_reserved s src i _ tag
  · obtain ⟨only, foreign⟩ := Classical.not_imp.1 permitted
    cases src with
    | program => exact absurd rfl foreign
    | tablet =>
      rw [serveLater_notPermitted h only]
      exact replyWaitsLast_answered s .tablet i _ tag _

/-- Settles O4: the act keeps the slot that the link unit reserved, and the reply posted to it waits last. -/
theorem everyRequestIsAnswered : Obligations.EveryRequestIsAnswered := by
  unfold Obligations.EveryRequestIsAnswered
  intro c s src tag k i request write read h
  obtain ⟨act, acts, run⟩ := exec_request request
  obtain ⟨f, rfl⟩ := acts.answers_at_once write read
  obtain ⟨r, slot, last⟩ := serve_replyWaitsLast h (fun t => sameSlots_act acts i t) k tag
  exact ⟨_, r, run s, slot, last⟩

end Sys2Proof.Machine

namespace Sys2Proof.Machine

open Sys2Proof.Safety

/-! ### Runs of bytes at the assembler (R177) -/

theorem rx_setRx (s : State) (link : Source) (rx : Assembler) : ((s.setRx link rx).link link).rx = rx :=
  congrArg LinkUnit.rx (State.link_setLink_self s link _)

theorem setRx_setRx (s : State) (link : Source) (a b : Assembler) :
    (s.setRx link a).setRx link b = s.setRx link b := by
  cases link <;> rfl

theorem setRx_rx {s : State} {link : Source} {rx : Assembler} (h : (s.link link).rx = rx) : s.setRx link rx = s := by
  subst h
  exact State.setLink_link s link

theorem sends_setRx {s : State} {link : Source} (up : Sends s link) (rx : Assembler) :
    Sends (s.setRx link rx) link := by
  unfold Sends State.setRx
  rwa [State.setLink_linkUp]

theorem feed_cons {s : State} {link : Source} (up : Sends s link) (b : Byte) (rest : List Byte) :
    feed link s (b :: rest) = feed link (assemble link b s) rest := by
  unfold feed
  rw [List.foldl_cons]
  dsimp only
  rw [exec_byteReceived up]

/-- R177: the bytes up to LEN are collected, whatever they hold. -/
theorem feed_collecting {s : State} {link : Source} (up : Sends s link) (len : Byte) (got bytes rest : List Byte)
    (room : got.length + bytes.length ≤ len.toNat) :
    feed link (s.setRx link (.collecting len got)) (bytes ++ rest) =
      feed link (s.setRx link (.collecting len (got ++ bytes))) rest := by
  induction bytes generalizing got with
  | nil => rw [List.nil_append, List.append_nil]
  | cons b bytes ih =>
    rw [List.length_cons] at room
    rw [List.cons_append, feed_cons (sends_setRx up _), assemble_collecting (rx_setRx s link _), if_pos (by omega),
      setRx_setRx, ih (got ++ [b]) (by rw [List.length_append, List.length_singleton]; omega), List.append_assoc,
      List.singleton_append]

/-- R177: the byte after LEN bytes is CHECK, and one that is right completes the frame. -/
theorem feed_check {s : State} {link : Source} (up : Sends s link) {len kind tag : Byte} {body : List Byte}
    (whole : len.toNat = body.length + 2) :
    feed link (s.setRx link (.collecting len (kind :: tag :: body))) [crc8 (len :: kind :: tag :: body)] =
      .next (takeFrame link kind tag body (s.setRx link .hunting)) := by
  have full : ¬(kind :: tag :: body).length < len.toNat := by
    rw [whole]
    exact Nat.lt_irrefl _
  rw [feed_cons (sends_setRx up _), assemble_collecting (rx_setRx s link _), if_neg full, setRx_setRx, checkFrame,
    if_pos rfl]
  rfl

/-- Settles O11: SYNC, then LEN, then as many bytes as LEN says, whatever they are, and then CHECK. -/
theorem wholeFrameIsTakenOnce : Obligations.WholeFrameIsTakenOnce := by
  unfold Obligations.WholeFrameIsTakenOnce
  intro s link kind tag body short up hunting
  have whole : (BitVec.ofNat 8 (body.length + 2)).toNat = body.length + 2 := by
    rw [BitVec.toNat_ofNat]
    exact Nat.mod_eq_of_lt (by omega)
  unfold frameOf
  dsimp only
  generalize BitVec.ofNat 8 (body.length + 2) = len at whole
  calc feed link s (0xA5#8 :: (len :: kind :: tag :: body ++ [crc8 (len :: kind :: tag :: body)]))
    _ = feed link (s.setRx link .awaitLen) (len :: kind :: tag :: body ++ [crc8 (len :: kind :: tag :: body)]) := by
      rw [feed_cons up, assemble_hunting hunting, if_pos rfl]
    _ = feed link (s.setRx link (.collecting len [])) (kind :: tag :: body ++ [crc8 (len :: kind :: tag :: body)]) := by
      rw [List.cons_append, feed_cons (sends_setRx up _), assemble_awaitLen (rx_setRx s link _),
        if_pos ⟨by omega, by omega⟩, setRx_setRx]
    _ = feed link (s.setRx link (.collecting len (kind :: tag :: body))) [crc8 (len :: kind :: tag :: body)] :=
      feed_collecting up len [] (kind :: tag :: body) _ (by simp [whole])
    _ = .next (takeFrame link kind tag body (s.setRx link .hunting)) := feed_check up whole
    _ = .next (takeFrame link kind tag body s) := by rw [setRx_rx hunting]

/-! ### IDENT and RESET (R183) -/

/-- Settles O12: IDENT changes nothing but its link's replies, and RESET closes the program link. -/
theorem identAndReset : Obligations.IdentAndReset := by
  unfold Obligations.IdentAndReset
  refine fun s src i tag => ⟨fun h => next_congr (serve_unchanged h rfl tag fun _ _ => rfl), fun h => ?_⟩
  refine ⟨_, next_congr (serve_answered h .reset tag (fun _ => rfl) rfl), rfl, ?_⟩
  rw [State.takesFrames, answered_resetTaken]
  rfl

end Sys2Proof.Machine

namespace Sys2Proof.Machine

open Sys2Proof.Safety

/-! ### The end of a frame (R176, R179, R183) -/

theorem exec_frameSent_paused {s : State} {link : Source} (paused : (s.link link).paused = true) :
    exec (.frameSent link) s = .next s := next_congr (if_pos paused)

theorem exec_frameSent {s t : State} {link : Source} (ends : (s.link link).paused = false)
    (sent : frameSent link s = t) : exec (.frameSent link) s = .next t :=
  next_congr ((if_neg (by rw [ends]; decide)).trans sent)

theorem frameSent_idle {s : State} {link : Source} (idle : (s.link link).tx = none) : frameSent link s = s := by
  unfold frameSent
  rw [idle]

theorem frameSent_busy {s : State} {link : Source} {f : TxFrame} (busy : (s.link link).tx = some f) :
    frameSent link s =
      if endsInReset link f then softReset (s.setLink link (s.link link).sent)
      else s.setLink link (s.link link).sent := by
  unfold frameSent
  rw [busy]

theorem LinkUnit.sent_reply {l : LinkUnit} {r : WaitingReply} (busy : l.tx = some (.reply r)) :
    l.sent = { l with slots := l.slots.set r.slot none, tx := none, begun := 0 } := by
  unfold LinkUnit.sent
  rw [busy]
  rfl

theorem LinkUnit.sent_notice {l : LinkUnit} {n : Notice} (busy : l.tx = some (.notice n)) :
    l.sent = { l with tx := none, begun := 0 } := by
  unfold LinkUnit.sent
  rw [busy]

theorem LinkUnit.sent_telemetry {l : LinkUnit} {x : TelemetryFrame} (busy : l.tx = some (.telemetry x)) :
    l.sent = { l with tx := none, begun := 0 } := by
  unfold LinkUnit.sent
  rw [busy]

/-- R176: a frame whose bytes have all begun, or whose next byte may start, is not paused. -/
theorem LinkUnit.not_paused {l : LinkUnit} {f : TxFrame} (busy : l.tx = some f)
    (ends : l.readyIn = true ∨ (frameBytes f).length ≤ l.begun) : l.paused = false := by
  rw [← Bool.not_eq_true, LinkUnit.paused_iff busy]
  rintro ⟨low, left⟩
  rcases ends with high | whole
  · rw [low] at high
    cases high
  · omega

/-- R183: only the reply to a RESET that was accepted, on the program link, ends in the soft reset. -/
theorem endsInReset_reply (link : Source) (r : WaitingReply) :
    endsInReset link (.reply r) = true ↔ link = .program ∧ r.kind = 0x82#8 ∧ r.reply.status = .ok := by
  cases link <;> simp [endsInReset]

theorem endsInReset_notice (link : Source) (n : Notice) : endsInReset link (.notice n) = false := by
  cases link <;> rfl

theorem endsInReset_telemetry (link : Source) (x : TelemetryFrame) : endsInReset link (.telemetry x) = false := by
  cases link <;> rfl

section Sent

variable {s : State} {link : Source}

theorem frameSent_notice {n : Notice} (busy : (s.link link).tx = some (.notice n)) :
    frameSent link s = s.setLink link { s.link link with tx := none, begun := 0 } := by
  rw [frameSent_busy busy, if_neg (by rw [endsInReset_notice]; decide), LinkUnit.sent_notice busy]

theorem frameSent_telemetry {x : TelemetryFrame} (busy : (s.link link).tx = some (.telemetry x)) :
    frameSent link s = s.setLink link { s.link link with tx := none, begun := 0 } := by
  rw [frameSent_busy busy, if_neg (by rw [endsInReset_telemetry]; decide), LinkUnit.sent_telemetry busy]

/-- R179, R183: the end of a reply frees its slot, and the soft reset follows an OK to RESET on the program link. -/
theorem frameSent_reply {r : WaitingReply} (busy : (s.link link).tx = some (.reply r)) :
    let freed := s.setLink link
      { s.link link with slots := (s.link link).slots.set r.slot none, tx := none, begun := 0 }
    frameSent link s =
      if link = .program ∧ r.kind = 0x82#8 ∧ r.reply.status = .ok then softReset freed else freed := by
  simp only [frameSent_busy busy, endsInReset_reply, LinkUnit.sent_reply busy]

end Sent

/-! ### The bytes of frames and contents (R176, Tables 11-1 and 11-3) -/

/-- Table 11-3: CLAMPED is bit 7, which no status code has. -/
theorem statusByte_eq (st : Status) (clamped : Bool) :
    statusByte st clamped = if clamped then statusCode st + 0x80#8 else statusCode st := by
  cases clamped
  · rfl
  · cases st <;> decide

/-- R179, Table 11-1: the frame of a reply. -/
theorem frameBytes_reply (r : WaitingReply) :
    frameBytes (.reply r) =
      frameOf r.kind r.tag (statusByte r.reply.status r.reply.clamped :: replyContent r.reply.body) := rfl

/-- R180, Table 11-1: the frame of a notice. -/
theorem frameBytes_notice (n : Notice) :
    frameBytes (.notice n) = frameOf (noticeKind n.body) 0 (noticeFlags n :: noticeContent n.body) := rfl

/-- R176: a natural number of a content goes out in as many little-endian bytes as its field has. -/
theorem numberBytes_natCast (width n : Nat) : numberBytes width n = toLe width (n % 2 ^ (8 * width)) := by
  rw [numberBytes, BitVec.ofInt_natCast, BitVec.toNat_ofNat]

/-- R155, R176: the content of a MASTER_SET reply, in a layout that does not depend on the master. -/
theorem replyContent_master (n : Nat) :
    replyContent (.master n) = (Config.replyLayout (.master 0)).flatMap fun
      | .codes bytes => bytes
      | .number i width => toLe width (if i = 0 then n % 2 ^ (8 * width) else 0) := by
  show contentBytes (Config.replyLayout (.master 0)) [(n : Int)] = _
  unfold contentBytes
  congr 1
  funext piece
  cases piece with
  | codes bytes => rfl
  | number i width =>
    cases i with
    | zero => exact numberBytes_natCast width n
    | succ j => exact (numberBytes_natCast width 0).trans (by rw [Nat.zero_mod]; rfl)

/-- Settles O14: the end of a frame by its kind and by the pause, and the bytes that each kind of frame has. -/
theorem frameSentFreesItsSlot : Obligations.FrameSentFreesItsSlot := by
  unfold Obligations.FrameSentFreesItsSlot
  refine ⟨fun s link => ⟨fun idle => ?_, fun f busy low left => ?_, fun f busy ends => ?_⟩, fun r => ?_,
    ⟨rfl, fun kind => rfl⟩,
    ⟨Config.overflowBit, fun n => ⟨noticeFlags n, noticeContent n.body, ?_, noticeFlags_overflow n⟩⟩,
    fun f => rfl, ⟨Config.replyLayout (.master 0), replyContent_master⟩⟩
  · exact exec_frameSent (LinkUnit.paused_of_idle idle) (frameSent_idle idle)
  · exact exec_frameSent_paused ((LinkUnit.paused_iff busy).2 ⟨low, left⟩)
  · have ended {t : State} (sent : frameSent link s = t) : exec (.frameSent link) s = .next t :=
      exec_frameSent (LinkUnit.not_paused busy ends) sent
    refine ⟨fun n e => ?_, fun x e => ?_, fun r e => ⟨fun other => ?_, fun program kind ok => ?_⟩⟩
    · subst e
      exact ended (frameSent_notice busy)
    · subst e
      exact ended (frameSent_telemetry busy)
    · subst e
      refine ended ((frameSent_reply busy).trans (if_neg ?_))
      rintro ⟨rfl, kind, ok⟩
      rcases other with tablet | kind' | status
      · cases tablet
      · exact kind' kind
      · exact status ok
    · subst e
      exact ⟨_, ended ((frameSent_reply busy).trans (if_pos ⟨program, kind, ok⟩)), rfl⟩
  · rw [frameBytes_reply, statusByte_eq]
    cases r.reply.status <;> rfl
  · rw [frameBytes_notice]
    cases n.body <;> rfl

end Sys2Proof.Machine

namespace Sys2Proof.Machine

open Sys2Proof.Safety

/-! ### Requests leave the waiting commands alone -/

theorem pending_ite {p : Prop} [Decidable p] {s a b : State} (h : a.pending = s.pending) (k : b.pending = s.pending) :
    (if p then a else b).pending = s.pending := by
  split
  · exact h
  · exact k

/-- Work that is quiet but for the owner records leaves the waiting commands alone. -/
theorem pending_of_withClaims {s t : State} (work : Quiet s (withClaims t s)) : t.pending = s.pending := work.pending

/-- An act of a block leaves the waiting commands alone, from every state. -/
def ActKeepsPending (act : State → State × Reply) : Prop := ∀ s, (act s).1.pending = s.pending

theorem pending_ownerOnly {act : State → State × Reply} (keeps : ActKeepsPending act) (r : Resource) (src : Source) :
    ActKeepsPending (ownerOnly r src act) := fun s => by
  have acted := keeps s
  fun_cases ownerOnly r src act s
  · next e _ =>
    rw [e] at acted
    exact (State.setClaim_pending _ r _).trans acted
  · next e _ => rwa [e] at acted
  · rfl

theorem pending_motorRequest {act : MotorId → State → State × Reply} (keeps : ∀ m, ActKeepsPending (act m)) (n : Nat)
    (src : Source) : ActKeepsPending (motorRequest n src act) := fun s => by
  fun_cases motorRequest n src act s
  · rfl
  · exact pending_ownerOnly (keeps _) _ src s

theorem pending_voiceRequest {act : VoiceId → State → State × Reply} (keeps : ∀ v, ActKeepsPending (act v)) (n : Nat)
    (src : Source) : ActKeepsPending (voiceRequest n src act) := fun s => by
  fun_cases voiceRequest n src act s
  · rfl
  · exact pending_ownerOnly (keeps _) _ src s

theorem pending_claimRequest (src : Source) (f : ClaimFields) : ActKeepsPending (claimRequest src f) := fun s => by
  fun_cases claimRequest src f s
  · rfl
  · rfl
  · exact foldl_keeps (fun t r => State.setClaim_pending t r _) _ s

theorem pending_releaseRequest (src : Source) (set : List Resource) : ActKeepsPending (releaseRequest src set) :=
  fun s => by
    fun_cases releaseRequest src set s
    · rfl
    · exact pending_of_withClaims (quiet_withClaims_foldl (quiet_endClaimsOf src .released) _ s)

theorem pending_renewRequest (src : Source) (set : List Resource) : ActKeepsPending (renewRequest src set) :=
  fun s => by
    fun_cases renewRequest src set s
    · rfl
    · exact foldl_keeps (fun t r => pending_ite (State.setClaim_pending t r _) rfl) _ s

theorem pending_takeRequest (f : ClaimFields) : ActKeepsPending (takeRequest f) := fun s => by
  fun_cases takeRequest f s
  · rfl
  · exact pending_of_withClaims (quiet_withClaims_foldl (quiet_takeOne _) _ s)

theorem pending_clearFault (m : MotorId) : ActKeepsPending (clearFault m) := fun s => by
  fun_cases clearFault m s
  · exact (quiet_enterRest m .idle s).pending
  · rfl

theorem pending_haltMotor (a : Coded StopAction) (m : MotorId) : ActKeepsPending (haltMotor a m) := fun s => by
  fun_cases haltMotor a m s
  · rfl
  · exact (quiet_afterEvents (quiet_stopAction m _ _ s)).pending

/-- R65 to R67: BUDGET_SET changes the governor and the motors and voices that it scales down. -/
theorem pending_budgetSet (x : Int) : ActKeepsPending (budgetSet x) := fun s => by
  show (setBudget (clampNat 500 8000 x) s).1.pending = s.pending
  rcases Nat.lt_or_ge (clampNat 500 8000 x) s.governor.used with exceeded | covers
  · rw [setBudget_exceeded exceeded, scaledDown_frame s]
  · rw [setBudget_covers covers]

theorem pending_mapSet (f : MapFields) : ActKeepsPending (mapSet f) := fun s => by
  fun_cases mapSet f s
  case case5 => exact (calm_mapChannel _ _ s).pending
  all_goals rfl

theorem pending_mapClear (n : Nat) : ActKeepsPending (mapClear n) := fun s => by
  have cleared (ch : ChannelId) : (clearChannel ch s).pending = s.pending := (calm_clearChannel ch s).pending
  fun_cases mapClear n s
  case case1 => rfl
  case case2 => rfl
  case case3 => rfl
  case case4 ch _ _ => exact (calm_channelNotice ch .unmapped .cleared s).pending
  all_goals
    dsimp only
    exact cleared _

theorem pending_watchSet (src : Source) (f : WatchFields) : ActKeepsPending (watchSet src f) := fun s => by
  fun_cases watchSet src f s
  case case3 ch idx kind _ _ _ _ _ => fun_cases placeWatch src f ch idx kind s <;> rfl
  all_goals rfl

theorem pending_playRequest (cue : Nat) (v : VoiceId) : ActKeepsPending (playRequest cue v) := fun s => by
  fun_cases playRequest cue v s
  · rfl
  · rfl
  · exact (quiet_playVoice quiet_react v _ s).pending

theorem pending_stopRequest (o : Coded FadeOption) (v : VoiceId) : ActKeepsPending (stopRequest o v) := fun s => by
  fun_cases stopRequest o v s
  · rfl
  · exact (quiet_stopVoice quiet_react v _ s).pending

theorem pending_voiceGain (x : Int) (v : VoiceId) : ActKeepsPending (voiceGain x v) := fun s =>
  pending_ite (s := s) (quiet_retarget v (s.modVoice v fun vo => { vo with level := clampNat 0 1024 x })).pending rfl

theorem pending_periodExpiry (n : SubId) (s : State) : (periodExpiry n s).pending = s.pending := by
  fun_cases periodExpiry n s <;> rfl

theorem pending_subscribe (src : Source) (f : SubscribeFields) : ActKeepsPending (subscribe src f) := fun s => by
  fun_cases subscribe src f s
  case case5 n _ _ _ _ _ => exact pending_periodExpiry n _
  all_goals rfl

/-- What a block does with a request leaves the waiting commands alone: the work behind it is steady, or it writes
records of its block's own tables. -/
theorem pending_act {src : Source} {k : RequestKind} {act : Fin 8 → State → State × Option Reply}
    (acts : ActsOn src k act) (i : Fin 8) (s : State) : (act i s).1.pending = s.pending := by
  cases acts with
  | ident => rfl
  | reset => rfl
  | claim f => exact pending_claimRequest src f s
  | release set => exact pending_releaseRequest src set s
  | renew set => exact pending_renewRequest src set s
  | take f => exact pending_takeRequest f s
  | motorSet n f => exact pending_motorRequest (fun m t => by fun_cases motorSet f m t <;> rfl) n src s
  | motorRead n => show (motorRead n s).1.pending = _; fun_cases motorRead n s <;> rfl
  | zero n x => exact pending_motorRequest (fun m t => by fun_cases zeroMotor x m t <;> rfl) n src s
  | clearFault n => exact pending_motorRequest pending_clearFault n src s
  | seg n r => exact pending_motorRequest (fun m t => by fun_cases segMotor r m t <;> rfl) n src s
  | halt n a => exact pending_motorRequest (pending_haltMotor a) n src s
  | budgetSet x => exact pending_budgetSet x s
  | budgetRead => rfl
  | chainRestart port o => exact (steady_chainRestart port o s).pending
  | chainSet port f => exact (steady_chainSet port f s).pending
  | chainRead port => show (chainRead port s).1.pending = _; fun_cases chainRead port s <;> rfl
  | moduleRead port pos => show (moduleRead port pos s).1.pending = _; fun_cases moduleRead port pos s <;> rfl
  | modulePageWrite port pos page b => exact (steady_pageRequest src port pos page (some b) i s).pending
  | modulePageRead port pos page => exact (steady_pageRequest src port pos page none i s).pending
  | mapSet f => exact pending_mapSet f s
  | mapClear n => exact pending_mapClear n s
  | channelRead n => show (channelRead n s).1.pending = _; fun_cases channelRead n s <;> rfl
  | watchSet f => exact pending_watchSet src f s
  | watchClear n => show (watchClear src n s).1.pending = _; fun_cases watchClear src n s <;> rfl
  | reactSet f => show (reactSet src f s).1.pending = _; fun_cases reactSet src f s <;> rfl
  | reactClear n => show (reactClear src n s).1.pending = _; fun_cases reactClear src n s <;> rfl
  | reactRead x => show (reactRead x s).1.pending = _; fun_cases reactRead x s <;> rfl
  | windowSet f => show (windowSet f s).1.pending = _; fun_cases windowSet f s <;> rfl
  | storeWrite base bytes =>
    show (storeWrite src base bytes s).1.pending = _; fun_cases storeWrite src base bytes s <;> rfl
  | storeRead base count =>
    show (storeRead src base count s).1.pending = _; fun_cases storeRead src base count s <;> rfl
  | clipDefine f => show (clipDefine src f s).1.pending = _; fun_cases clipDefine src f s <;> rfl
  | clipRemove n => show (clipRemove src n s).1.pending = _; fun_cases clipRemove src n s <;> rfl
  | cueSet f => show (cueSet src f s).1.pending = _; fun_cases cueSet src f s <;> rfl
  | cueClear n => show (cueClear src n s).1.pending = _; fun_cases cueClear src n s <;> rfl
  | play n cue => exact pending_voiceRequest (pending_playRequest cue) n src s
  | stop n o => exact pending_voiceRequest (pending_stopRequest o) n src s
  | voiceGain n x => exact pending_voiceRequest (pending_voiceGain x) n src s
  | masterSet x => rfl
  | subscribe f => exact pending_subscribe src f s
  | unsubscribe n => show (unsubscribe src n s).1.pending = _; fun_cases unsubscribe src n s <;> rfl

/-! ### Frames sent, resets and LINK_UP leave the waiting commands alone -/

/-- R177, R178: frames are followed in this form, with the waiting commands named once at the start. -/
theorem pendingIs_setLink {waiting : List Instr} (s : State) (src : Source) (l : LinkUnit)
    (h : s.pending = waiting) : (s.setLink src l).pending = waiting :=
  (State.setLink_pending s src l).trans h

theorem pendingIs_act {waiting : List Instr} {src : Source} {k : RequestKind}
    {act : Fin 8 → State → State × Option Reply} (acts : ActsOn src k act) (i : Fin 8) (s : State)
    (h : s.pending = waiting) : (act i s).1.pending = waiting :=
  (pending_act acts i s).trans h

theorem pending_sendTelemetry (link : Source) (s : State) : (sendTelemetry link s).pending = s.pending :=
  (State.setLink_pending _ link _).trans
    (foldl_keeps (get := State.pending) (fun t x => by fun_cases markSent t x <;> rfl) _ s)

theorem pending_chooseFrame (link : Source) (s : State) : (chooseFrame link s).pending = s.pending := by
  fun_cases chooseFrame link s
  · exact State.setLink_pending s link _
  · exact pending_sendTelemetry link s
  · exact State.setLink_pending s link _
  · rfl
  · exact pending_sendTelemetry link s

/-- R184: power-on resets the machine, not the commands that wait for it. -/
theorem pending_powerOn (s : State) : (powerOn s).pending = s.pending :=
  (quiet_placeBoth (State.reset.withPins s) _).pending

theorem pending_softReset (s : State) : (softReset s).pending = s.pending := by
  rw [softReset_eq]

theorem pending_frameSent (link : Source) (s : State) : (frameSent link s).pending = s.pending := by
  fun_cases frameSent link s
  · rfl
  · exact (pending_softReset _).trans (State.setLink_pending s link _)
  · exact State.setLink_pending s link _

theorem pending_linkUpFall (s : State) : (linkUpFall s).pending = s.pending := by
  have dropped : (tabletDropped s).pending = s.pending := by
    rw [sameBesideTables_tabletDropped s]
    rfl
  have ended := pending_of_withClaims
    (quiet_withClaims_foldl (quiet_endClaimsOf .tablet .linkDown) allResources (tabletDropped s))
  rw [linkUpFall_eq]
  generalize allResources.foldl (endClaimsOf .tablet .linkDown) (tabletDropped s) = u at ended ⊢
  exact ended.trans dropped

theorem pending_expireDuration (m : MotorId) (s : State) : (expireDuration m s).pending = s.pending := by
  fun_cases expireDuration m s
  · rfl
  · exact ((quiet_modMotor s m _).trans (quiet_afterEvents (quiet_durationExpired m _))).pending
  · rfl

theorem pending_outputSample (s : State) : (outputSample react s).pending = s.pending := by
  obtain ⟨_, quiet⟩ := quiet_outputSample s
  exact quiet.pending

/-! ### One command -/

/-- The event rows answer a next state with the same commands waiting. -/
theorem event_keepsPending {c : Instr} (event : requestOf c = none) (s : State) :
    ∃ t, exec c s = .next t ∧ t.pending = s.pending := by
  cases c with
  | powerOn => exact ⟨_, rfl, pending_powerOn s⟩
  | softReset => exact ⟨_, rfl, pending_softReset s⟩
  | linkUpFall => exact ⟨_, rfl, pending_ite (pending_linkUpFall s) rfl⟩
  | linkUpRise => exact ⟨_, rfl, pending_ite rfl (by rw [linkUpRise_eq])⟩
  | readyInChange link high =>
    refine ⟨_, rfl, ?_⟩
    split
    · exact State.setLink_pending s link _
    · exact State.setLink_pending s link _
  | byteReceived link b =>
    exact ⟨_, rfl, pending_ite rfl (assemble_keeps pendingIs_setLink pendingIs_act link b rfl)⟩
  | frameByteTimeout link => exact ⟨_, rfl, State.setLink_pending s link _⟩
  | unknownKind src tag kind =>
    exact ⟨_, rfl, pending_ite rfl (takeUnknown_keeps pendingIs_setLink src tag kind rfl)⟩
  | frameStart link => exact ⟨_, rfl, pending_ite (pending_chooseFrame link s) rfl⟩
  | frameSent link => exact ⟨_, rfl, pending_ite rfl (pending_frameSent link s)⟩
  | leaseExpiry r => exact ⟨_, rfl, pending_ite (pending_of_withClaims (quiet_endClaim r .lease _ s)) rfl⟩
  | encoderStep m a b => exact ⟨_, rfl, rfl⟩
  | controlTick m x => exact ⟨_, rfl, (quiet_afterEvents (quiet_controlTick m x s)).pending⟩
  | trip m => exact ⟨_, rfl, pending_ite (quiet_afterEvents (quiet_takeTrip m s)).pending rfl⟩
  | durationExpiry m => exact ⟨_, rfl, pending_expireDuration m s⟩
  | stall m => exact ⟨_, rfl, pending_ite (quiet_afterEvents (quiet_takeStall m s)).pending rfl⟩
  | resetRestExpiry p => exact ⟨_, rfl, (steady_restExpiry p s).pending⟩
  | trainRetryTimer p => exact ⟨_, rfl, (steady_trainRetry p s).pending⟩
  | emptyProbeTimer p => exact ⟨_, rfl, (steady_probeExpiry p s).pending⟩
  | faultRetryTimer p => exact ⟨_, rfl, (steady_faultRetry p s).pending⟩
  | syncTimerExpiry p => exact ⟨_, rfl, (steady_syncExpiry p s).pending⟩
  | callSent p => exact ⟨_, rfl, (steady_callSent p s).pending⟩
  | transactionEnd p a b => exact ⟨_, rfl, (steady_answersHeard p false a b s).pending⟩
  | answerTimeout p a b => exact ⟨_, rfl, (steady_answersHeard p true a b s).pending⟩
  | missesAbsent p k => exact ⟨_, rfl, (steady_missesAbsent p k s).pending⟩
  | settleExpiry p k => exact ⟨_, rfl, (steady_settleExpiry p k s).pending⟩
  | staleDeadline ch => exact ⟨_, rfl, pending_ite rfl rfl⟩
  | outputSample => exact ⟨_, rfl, pending_outputSample s⟩
  | periodExpiry n => exact ⟨_, rfl, pending_periodExpiry n s⟩
  | carrierPeriod => exact ⟨_, rfl, rfl⟩
  | _ => cases event

/-- Every command answers a next state with the same commands waiting. -/
theorem exec_keepsPending (c : Instr) (s : State) : ∃ t, exec c s = .next t ∧ t.pending = s.pending := by
  cases request : requestOf c with
  | none => exact event_keepsPending request s
  | some row =>
    obtain ⟨src, tag, k⟩ := row
    obtain ⟨act, acts, run⟩ := exec_request request
    exact ⟨_, run s, serveLater_keeps pendingIs_setLink (pendingIs_act acts) k src tag rfl⟩

/-- Settles O3: the next state that every command answers, with the queue it leaves alone. -/
theorem everyCommandCompletes : Obligations.EveryCommandCompletes := by
  unfold Obligations.EveryCommandCompletes
  refine ⟨fun c s => ?_, fun c s t run => ?_⟩
  · obtain ⟨t, next, _⟩ := exec_keepsPending c s
    exact ⟨t, next⟩
  · obtain ⟨u, next, kept⟩ := exec_keepsPending c s
    cases next.symm.trans run
    exact kept

/-- A queue with a command in front steps by that command. -/
theorem step_of_pending {s : State} {c : Instr} {rest : List Instr} (front : s.pending = c :: rest) :
    step s = exec c { s with pending := rest } := by
  unfold step
  rw [front]

/-- Settles O1: what the step takes off the queue is the front command alone. -/
theorem stepRunsFrontCommand : Obligations.StepRunsFrontCommand := by
  unfold Obligations.StepRunsFrontCommand
  intro c s rest
  exact step_of_pending rfl

end Sys2Proof.Machine
